-- ==== Sys2Proof/Word.lean ====
section
/-! DEFINITION. The words of the CT816: bytes, wrapping 32-bit counters, the 16-byte token, and the indices of the
part's fixed collections. Nothing here computes. -/

namespace Sys2Proof

/-- A byte of a message or of a field-line frame (R187, R189). -/
abbrev Byte := BitVec 8

/-- A 16-bit word: a downstream mask (R3), a plan set (R123), a setting id (R193), a CRC (R10). -/
abbrev Word16 := BitVec 16

/-- A 32-bit word: a counter that wraps at 2^32, an upstream mask (R3), a number a request names. -/
abbrev Word32 := BitVec 32

/-- The 16-byte token of a customer or vehicle (R15), its first byte the most significant one. -/
abbrev Token := BitVec 128

/-- The 8 characters of a page's label (R118), the first the most significant byte. -/
abbrev Label := BitVec 64

/-- A bay, 0–15. -/
abbrev BayId := Fin 16

/-- A station of the canopy line, 0–9: canopy converters 0–7, battery converter 8, grid meter 9. -/
abbrev NodeId := Fin 10

/-- A session record, 0–31 (R77). -/
abbrev RecordId := Fin 32

/-- A plan of the plan directory, 0–15 (R117). -/
abbrev PlanId := Fin 16

/-- A tariff page, 0–11 (R118). -/
abbrev PageId := Fin 12

/-- The two serial ports: `a` to the back-office computer, `b` to the till (R177). -/
inductive Port where
  | a
  | b
  deriving DecidableEq, Repr

end Sys2Proof
end

