-- ==== Sys2Proof/Config.lean ====
section
/-! DEFINITION. What is fixed for the part: the free values the manual leaves open. A free value is a constant with no
body, so nothing can be proved of it and every claim holds whatever it is. -/

namespace Sys2Proof.Config

/-- What a 32-bit count of an interval record holds once it would pass 2^32 − 1. R169 gives the count 32 bits and
no rule says whether it wraps or stops (DESIGN CHOICE, assumption 8: a free value of the exact count). -/
opaque count32Past : Nat → Nat

/-- What a 64-bit Wh figure of an interval record holds once it would pass 2^64 − 1. R169 gives the figure 64 bits and
no rule says what a merge past them leaves (DESIGN CHOICE, assumption 8: a free value of the exact sum). -/
opaque energy64Past : Nat → Nat

end Sys2Proof.Config
end

