-- ==== Sys2Proof/Syntax.lean ====
section
/-! DEFINITION. The commands of the CT816: one constructor for each row of spec/opcode_table.json, with its operands.

The first 30 rows are requests. Each carries the port it is in service on and the fields of its body, as the rule of
its owning block names them; the tag, role and effective level stand in the port context (R180, R181). The other rows
are events: completions, resets, bytes received, link slots, reply positions, expiries and hand-overs. -/

namespace Sys2Proof

/-- The commands, one constructor for each row of the operation and event table. -/
inductive Instr where
  /-- GET_STATUS (R55, R35, R73). -/
  | getStatus (p : Port)
  /-- GET_BAY(bay) (R20). -/
  | getBay (p : Port) (bay : Byte)
  /-- GET_SESSION(record) (R99). -/
  | getSession (p : Port) (record : Byte)
  /-- GET_PLAN(plan) (R133). -/
  | getPlan (p : Port) (plan : Byte)
  /-- GET_SCHEDULE (R7). -/
  | getSchedule (p : Port)
  /-- GET_INTERVAL (R175). -/
  | getInterval (p : Port)
  /-- AUTHORIZE(bay, request id, plan, class, energy cap, cost cap) with a request id other than 0 (R83, R190). -/
  | authorize (p : Port) (bay requestId plan cls capPresence : Byte) (energyCap costCap : Word32)
  /-- AUTHORIZE with request id 0 (R84, R190). -/
  | tillVoucher (p : Port) (bay plan cls capPresence : Byte) (energyCap costCap : Word32)
  /-- DENY(bay, request id) (R85). -/
  | deny (p : Port) (bay requestId : Byte)
  /-- STOP_SESSION(record) (R97). -/
  | stopSession (p : Port) (record : Byte)
  /-- SET_CLASS(record, class) (R98). -/
  | setClass (p : Port) (record cls : Byte)
  /-- TRANSFER(record, target bay) (R102, R103). -/
  | transfer (p : Port) (record target : Byte)
  /-- CANCEL_TRANSFER(record) (R109). -/
  | cancelTransfer (p : Port) (record : Byte)
  /-- RECEIPT_ACK(number) (R155). -/
  | receiptAck (p : Port) (number : Word32)
  /-- RECEIPT_GET(number) (R158). -/
  | receiptGet (p : Port) (number : Word32)
  /-- SET_RECEIPT_BASE(number) (R160). -/
  | setReceiptBase (p : Port) (number : Word32)
  /-- PAGE_OPEN(label, use level, idle rate, idle grace, idle cap) (R120); the idle cap has a presence byte (R188). -/
  | pageOpen (p : Port) (label : Label) (useLevel : Byte) (idleRate : Word16) (idleGrace capPresence : Byte)
      (idleCap : Word16)
  /-- PAGE_WRITE(first slot, count, entries) (R121); the entries are the bytes that follow the count. -/
  | pageWrite (p : Port) (first count : Byte) (entries : List Byte)
  /-- PAGE_PUBLISH(plans, plan use level) (R123); bit n of the plan set marks plan n. -/
  | pagePublish (p : Port) (plans : Word16) (useLevel : Byte)
  /-- PAGE_DISCARD (R122). -/
  | pageDiscard (p : Port)
  /-- PLAN_CLEAR(plan) (R125). -/
  | planClear (p : Port) (plan : Byte)
  /-- STAGE_SLOTS(bay, downstream mask, upstream mask) (R4). -/
  | stageSlots (p : Port) (bay : Byte) (down : Word16) (up : Word32)
  /-- COMMIT_SCHEDULE (R5). -/
  | commitSchedule (p : Port)
  /-- CURTAIL(limit, duration) (R41). -/
  | curtail (p : Port) (limit duration : Word32)
  /-- CURTAIL_END (R42). -/
  | curtailEnd (p : Port)
  /-- SET_CLOCK(day, ms of day) (R165). -/
  | setClock (p : Port) (day : Word16) (ms : Word32)
  /-- INTERVAL_ACK(number) (R172). -/
  | intervalAck (p : Port) (number : Word32)
  /-- SET_SETTING(id, value) (R193). -/
  | setSetting (p : Port) (id : Word16) (value : Word32)
  /-- SAVE_SETTINGS (R194). -/
  | saveSettings (p : Port)
  /-- RESTART (R197). -/
  | restart (p : Port)
  /-- The completion of a settings save (R194). -/
  | saveComplete
  /-- A power-on reset (R197). -/
  | powerOn
  /-- A reset on the reset pin (R197). -/
  | resetPin
  /-- Bytes arrive on a port and complete a well-framed message (R178, R179). -/
  | requestArrival (p : Port) (bytes : List Byte)
  /-- Bytes arrive on a port and complete a message that is discarded (R178). -/
  | messageDiscard (p : Port) (bytes : List Byte)
  /-- More than 20 ms pass after the last byte received on a port, and `next` ends the gap (R178). -/
  | interByteTimeout (p : Port) (next : Byte)
  /-- The oldest queued request of a port enters service and is checked (R180, R181). -/
  | serviceStart (p : Port)
  /-- A port has sent a message whole (R184). -/
  | transmitComplete (p : Port)
  /-- A sweep start (R2). -/
  | sweepStart
  /-- Downstream link slot `slot` of the sweep begins (R1, R18). -/
  | grant (slot : Fin 16)
  /-- Upstream link slot `slot` ends, `heard` the bytes heard in it: a valid STATUS frame (R15). -/
  | status (slot : Fin 32) (heard : List Byte)
  /-- Upstream link slot `slot` ends, `heard` the bytes heard in it: a valid METER frame (R16). -/
  | meter (slot : Fin 32) (heard : List Byte)
  /-- Upstream link slot `slot` ends, `heard` the bytes heard in it: a frame that is discarded (R12). -/
  | discardedFrame (slot : Fin 32) (heard : List Byte)
  /-- The authorisation deadline of a PENDING record expires (R86). -/
  | authTimeout (record : RecordId)
  /-- The resume deadline of a SUSPENDED record expires (R96). -/
  | resumeDeadlineExpiry (record : RecordId)
  /-- The transfer deadline of a TRANSFERRING head expires (R108). -/
  | transferTimeout (record : RecordId)
  /-- The curtailment overlay's remaining duration has reached 0 (R42). -/
  | curtailmentExpiry
  /-- A canopy period begins: line slot 0 (R23, R25). -/
  | poll
  /-- The reply position of canopy converter `node` ends, `heard` the bytes heard in it: a valid reply (R26–R28). -/
  | canopySample (node : Fin 8) (heard : List Byte)
  /-- The reply position of the battery converter ends: a valid reply (R26–R28). -/
  | batterySample (heard : List Byte)
  /-- The reply position of the grid meter ends: a valid reply (R26–R28). -/
  | meterSample (heard : List Byte)
  /-- The reply position of `node` ends with a frame that is discarded (R26). -/
  | canopyDiscard (node : NodeId) (heard : List Byte)
  /-- The reply position of `node` ends with no preamble begun in it (R26). -/
  | noReply (node : NodeId) (heard : List Byte)
  /-- A cycle end (R29). -/
  | cycleEnd
  /-- The ALE takes the oldest measurement set handed to it (R39). -/
  | allocation
  /-- The IVM takes the oldest measurement set handed to it (R167). -/
  | measurementSetAtIvm
  /-- The site clock has reached the end of the current interval (R168). -/
  | boundaryClose
  deriving DecidableEq, Repr

end Sys2Proof
end

