-- ==== Sys2Proof/Machine/State.lean ====
section
/-! DEFINITION. Everything the manual gives the CT816, as plain data: one structure for each of its nine blocks, the
messages that stand in its queues, the last thing driven on each line, and the commands waiting to be taken. -/

namespace Sys2Proof.Machine

/-! ## Site-clock times -/

/-- A site-clock time: a day number 0–65,535 and a ms of day 0–86,399,999 (R164). -/
structure SiteTime where
  day : Fin 65536
  ms : Fin 86400000
  deriving DecidableEq, Repr

/-! ## Settings Store -/

/-- The shed stack's overflow policy (R69). -/
inductive OverflowPolicy where
  | wrap
  | freeze
  deriving DecidableEq, Repr

/-- One value for each setting of R192. Durations stand in the unit of the table. -/
structure Settings where
  sweepPeriod : Nat
  silentThreshold : Nat
  enabled : Vector Bool 16
  phases : Vector Nat 16
  cableRating : Vector Nat 16
  periodsPerCycle : Nat
  periodLength : Nat
  windowStart : Nat
  windowStop : Nat
  holdCycles : Nat
  converterRating : Vector Nat 8
  importLimit : Nat
  margin : Nat
  reserveFloor : Nat
  chargeStop : Nat
  /-- `none` is the table's value none. -/
  exportLimit : Option Nat
  probeStep : Nat
  fallbackPool : Nat
  shedHold : Nat
  restoreMargin : Nat
  shedStackDepth : Nat
  overflowPolicy : OverflowPolicy
  authorisationTimeout : Nat
  resumeWindow : Nat
  transferTimeout : Nat
  tokenFreeTransfer : Bool
  /-- Bit n marks plan n. -/
  protectedPlans : Word16
  intervalLength : Nat
  demandTarget : Nat
  ceilingA : Nat
  ceilingB : Nat
  receiptPort : Port
  authorisationPort : Port
  deriving DecidableEq, Repr

/-- The defaults of R192. -/
def Settings.defaults : Settings where
  sweepPeriod := 500
  silentThreshold := 3
  enabled := Vector.replicate 16 true
  phases := Vector.replicate 16 3
  cableRating := Vector.replicate 16 320
  periodsPerCycle := 20
  periodLength := 100
  windowStart := 4
  windowStop := 19
  holdCycles := 3
  converterRating := Vector.replicate 8 25000
  importLimit := 100000
  margin := 5000
  reserveFloor := 300
  chargeStop := 950
  exportLimit := none
  probeStep := 2000
  fallbackPool := 0
  shedHold := 5
  restoreMargin := 1500
  shedStackDepth := 16
  overflowPolicy := .wrap
  authorisationTimeout := 15
  resumeWindow := 120
  transferTimeout := 300
  tokenFreeTransfer := false
  protectedPlans := 0
  intervalLength := 900
  demandTarget := 0
  ceilingA := 0
  ceilingB := 2
  receiptPort := .b
  authorisationPort := .b

/-- The stored settings image in nonvolatile memory and whether its checksum agrees (R194, R196). -/
structure StoredImage where
  valid : Bool
  contents : Settings
  deriving DecidableEq, Repr

/-- The save state (R194): while SAVING, the copy taken at the start and the port of the request that waits. -/
inductive SaveState where
  | idle
  | saving (copy : Settings) (port : Port)
  deriving DecidableEq, Repr

/-- The Settings Store. -/
structure SettingsStore where
  /-- The working settings (R192). -/
  working : Settings
  image : StoredImage
  save : SaveState
  deriving DecidableEq, Repr

/-! ## Bay Link Controller -/

/-- A bay's link state (R12–R14). -/
inductive LinkState where
  | absent
  | scheduledWait
  | online
  | silent
  deriving DecidableEq, Repr

/-- The vehicle states of a STATUS frame (R9). -/
inductive VehicleState where
  | unplugged
  | plugged
  | demanding
  | fault
  deriving DecidableEq, Repr

/-- An effective report (R15). -/
structure Report where
  vehicle : VehicleState
  heldRequest : Nat
  faultCode : Byte
  token : Option Token
  deriving DecidableEq, Repr

/-- Where a bay stands on the shed stack (R72); stack position 1 is the top. -/
inductive ShedPlace where
  | none
  | stack (position : Nat)
  | unlisted
  deriving DecidableEq, Repr

/-- A bay's entry in the bay table (R21, R72). -/
structure Bay where
  link : LinkState
  missCount : Nat
  goodFrames : Word32
  correctedFrames : Word32
  discardedFrames : Word32
  jumpCount : Word32
  unbilledWh : Word32
  lastStatus : Report
  lastStatusTime : Option SiteTime
  lastCounter : Option Word32
  lastPower : Nat
  grantLastSent : Nat
  session : Option RecordId
  reservedFor : Option RecordId
  foreignMark : Bool
  lastGrant : Nat
  shedPlace : ShedPlace
  shedSince : Option Word32
  recordedStart : Option Word32
  deriving DecidableEq, Repr

/-- A bay's two link slot masks in one copy of the schedule (R3). -/
structure Masks where
  down : Word16
  up : Word32
  deriving DecidableEq, Repr

/-! ## Canopy Line Controller -/

/-- A node's standing (R31). -/
inductive Standing where
  | live
  | held
  | lost
  deriving DecidableEq, Repr

/-- A node's entry in the node table (R36). -/
structure Node where
  standing : Standing
  holdCount : Nat
  mean : Int
  windowSum : Int
  windowCount : Nat
  goodFrames : Word32
  correctedFrames : Word32
  discardedFrames : Word32
  noReplies : Word32
  deriving DecidableEq, Repr

/-- The battery node's further fields (R36). -/
structure BatteryEntry where
  windowPresent : Bool
  windowCharge : Nat
  windowMaxDischarge : Nat
  windowMaxCharge : Nat
  charge : Nat
  maxDischarge : Nat
  maxCharge : Nat
  deriving DecidableEq, Repr

/-- The measurement set (R33). -/
structure MeasurementSet where
  cycle : Word32
  duration : Nat
  endTime : Option SiteTime
  canopyMeans : Vector Nat 8
  /-- S, the sum of the canopy means. -/
  solar : Nat
  /-- Bm. -/
  battery : Int
  charge : Nat
  maxDischarge : Nat
  maxCharge : Nat
  /-- Pg. -/
  grid : Int
  held : Vector Bool 10
  lost : Vector Bool 10
  meterLost : Bool
  deriving DecidableEq, Repr

/-- The Canopy Line Controller. -/
structure CanopyLine where
  nodes : Vector Node 10
  battery : BatteryEntry
  cycleNumber : Word32
  periodIndex : Nat
  /-- Whether the POLL of the period in progress has been sent. -/
  polled : Bool
  /-- The settings taken at the cycle start (R22) and the effective window formed from them (R28). -/
  periodsTaken : Nat
  lengthTaken : Nat
  windowFrom : Nat
  windowTo : Nat
  deriving DecidableEq, Repr

/-! ## Allocation Engine -/

/-- Which term gave Glim (R40). -/
inductive LimitSource where
  | setting
  | curtail
  | guard
  deriving DecidableEq, Repr

/-- A permille split by source (R51). -/
structure Shares where
  solar : Nat
  battery : Nat
  grid : Nat
  deriving DecidableEq, Repr

/-- The record of one allocation (R54). -/
structure GrantSet where
  sequence : Word32
  grants : Vector Nat 16
  glim : Nat
  source : LimitSource
  /-- The demand guard as read; `none` when invalid (R43). -/
  guard : Option Nat
  curtailed : Bool
  shopLoad : Nat
  chargers : Nat
  headroom : Int
  margin : Nat
  maxDischarge : Nat
  maxCharge : Nat
  demand01 : Nat
  discharge : Nat
  pool01 : Nat
  granted01 : Nat
  pool2 : Nat
  granted2 : Nat
  charge : Nat
  setpoint : Int
  exportPlanned : Nat
  totalCeiling : Option Nat
  /-- Per canopy node; `none` is the ceiling none. -/
  ceilings : Vector (Option Nat) 8
  solar01 : Nat
  battery01 : Nat
  grid01 : Nat
  shares01 : Shares
  shares2 : Shares
  meterLost : Bool
  exportLimited : Bool
  ceilingsCarried : Bool
  importLatch : Bool
  meterLostLatch : Bool
  held : Vector Bool 10
  lost : Vector Bool 10
  deriving DecidableEq, Repr

/-- The curtailment overlay while it is active (R41): its limit, and its remaining duration in ms. -/
structure Overlay where
  limit : Nat
  remainingMs : Nat
  deriving DecidableEq, Repr

/-- A bay on the shed stack or in the unlisted set, with its shed-since cycle (R67). -/
structure ShedEntry where
  bay : BayId
  since : Word32
  deriving DecidableEq, Repr

/-- The Allocation Engine. -/
structure Allocator where
  /-- Measurement sets handed over by the CLC and not yet taken, oldest first (R29, R39). -/
  inbox : List MeasurementSet
  current : Option GrantSet
  previous : Option GrantSet
  overlay : Option Overlay
  importLatch : Bool
  meterLostLatch : Bool
  /-- Top first. -/
  shedStack : List ShedEntry
  /-- In ascending bay number. -/
  unlisted : List ShedEntry
  overflowCount : Word32
  deriving DecidableEq, Repr

/-- The Bay Link Controller. -/
structure BayLink where
  bays : Vector Bay 16
  staged : Vector Masks 16
  pendingCopy : Option (Vector Masks 16)
  active : Vector Masks 16
  sweepNumber : Word32
  /-- Whether a sweep has begun since the last reset: start-up begins the first (R2, R198). -/
  sweepBegun : Bool
  /-- The sweep period the sweep in progress began with (R1). -/
  sweepPeriodTaken : Nat
  /-- The grant source taken at the sweep start (R2). -/
  grantSource : Option GrantSet
  /-- Which bays have delivered a valid frame in the sweep in progress (R14). -/
  heard : Vector Bool 16
  deriving DecidableEq, Repr

/-! ## Session Manager -/

/-- The states of a session record (R77). -/
inductive RecordState where
  | free
  | pending
  | active
  | suspended
  | transferring
  | linked
  | closed
  | receipted
  deriving DecidableEq, Repr

/-- The charge states (R93). -/
inductive ChargeState where
  | running
  | shed
  | idle
  | waiting
  deriving DecidableEq, Repr

/-- The suspension reasons (R94). -/
inductive SuspensionReason where
  | fault
  | silent
  | unscheduled
  deriving DecidableEq, Repr

/-- The reasons a chain closes with (R80), in the order of R191. -/
inductive EndReason where
  | stopped
  | unplugged
  | lost
  | linkLost
  | capReached
  | transferTimeout
  | noContext
  | splitLimit
  deriving DecidableEq, Repr

/-- A price triple in price units (R118). -/
structure Triple where
  solar : Nat
  battery : Nat
  grid : Nat
  deriving DecidableEq, Repr

/-- A segment (R137). -/
structure Segment where
  triple : Triple
  firstUse : Option SiteTime
  solar : Nat
  battery : Nat
  grid : Nat
  deriving DecidableEq, Repr

/-- A session record (R78). -/
structure Record where
  state : RecordState
  bay : BayId
  token : Option Token
  plan : Option PlanId
  page : Option PageId
  cls : Fin 3
  backLink : Option RecordId
  depth : Nat
  startSeq : Option Word32
  startTime : Option SiteTime
  endTime : Option SiteTime
  endReason : Option EndReason
  meterLast : Option Word32
  metered : Nat
  /-- In order of first use. -/
  segments : List Segment
  idleMs : Nat
  energyCap : Option Nat
  costCap : Option Nat
  charge : ChargeState
  suspension : Option SuspensionReason
  authDeadline : Option SiteTime
  resumeDeadline : Option SiteTime
  transferDeadline : Option SiteTime
  transferTarget : Option BayId
  deriving DecidableEq, Repr

/-- A FREE record: every optional field absent and every count 0 (R100). -/
def Record.cleared : Record where
  state := .free
  bay := 0
  token := none
  plan := none
  page := none
  cls := 0
  backLink := none
  depth := 0
  startSeq := none
  startTime := none
  endTime := none
  endReason := none
  meterLast := none
  metered := 0
  segments := []
  idleMs := 0
  energyCap := none
  costCap := none
  charge := .waiting
  suspension := none
  authDeadline := none
  resumeDeadline := none
  transferDeadline := none
  transferTarget := none

/-- The Session Manager. -/
structure Sessions where
  records : Vector Record 32
  startCounter : Word32
  allocPointer : RecordId
  /-- The heads of the closed chains that wait for room, oldest first (R114). -/
  waiting : List RecordId
  endedLatch : Vector Bool 16
  noContextMark : Vector Bool 16
  deriving DecidableEq, Repr

/-! ## Tariff Store -/

/-- The states of a page (R119). -/
inductive PageState where
  | free
  | staging
  | published
  | retired
  deriving DecidableEq, Repr

/-- A tariff page (R118). -/
structure Page where
  state : PageState
  label : Label
  useLevel : Nat
  idleRate : Nat
  idleGrace : Nat
  idleCap : Option Nat
  slots : Vector Triple 48
  written : Vector Bool 48
  pins : Nat
  deriving DecidableEq, Repr

/-- A FREE page, its contents cleared (R118). The cleared label is eight zero bytes (assumption 20). -/
def Page.cleared : Page where
  state := .free
  label := 0
  useLevel := 0
  idleRate := 0
  idleGrace := 0
  idleCap := none
  slots := Vector.replicate 48 ⟨0, 0, 0⟩
  written := Vector.replicate 48 false
  pins := 0

/-- A present entry of the plan directory (R117). -/
structure PlanEntry where
  page : PageId
  useLevel : Nat
  deriving DecidableEq, Repr

/-- The staging state while it is open: the staging page and the port that opened it (R120). -/
structure Staging where
  page : PageId
  owner : Port
  deriving DecidableEq, Repr

/-- The Tariff Store. -/
structure Tariffs where
  plans : Vector (Option PlanEntry) 16
  pages : Vector Page 12
  staging : Option Staging
  deriving DecidableEq, Repr

/-! ## Receipt Queue -/

/-- A line of a receipt (R152). -/
structure ReceiptLine where
  recordIndex : Nat
  firstUse : Option SiteTime
  triple : Triple
  solar : Nat
  battery : Nat
  grid : Nat
  cost : Nat
  deriving DecidableEq, Repr

/-- The idle line of a receipt (R153). -/
structure IdleLine where
  minutes : Nat
  fee : Nat
  deriving DecidableEq, Repr

/-- A receipt as it was built (R151–R153). -/
structure Receipt where
  number : Word32
  issueTime : Option SiteTime
  head : RecordId
  startSeq : Word32
  token : Option Token
  plan : PlanId
  label : Label
  cls : Fin 3
  firstBay : BayId
  lastBay : BayId
  startTime : Option SiteTime
  endTime : Option SiteTime
  endReason : EndReason
  records : Nat
  lines : List ReceiptLine
  idleLine : Option IdleLine
  totalMWh : Nat
  totalCents : Nat
  deriving DecidableEq, Repr

/-- The Receipt Queue. -/
structure ReceiptQueue where
  /-- In issue order, the oldest first; each receipt names its chain's head (R148). -/
  entries : List Receipt
  nextNumber : Word32
  deriving DecidableEq, Repr

/-! ## Interval Meter -/

/-- The six interval quantities (R167): mJ in accumulators and carries, Wh in a record. -/
structure Six where
  imported : Nat
  exported : Nat
  solar : Nat
  discharge : Nat
  charge : Nat
  chargers : Nat
  deriving DecidableEq, Repr

/-- Six zeros. -/
def Six.zero : Six := ⟨0, 0, 0, 0, 0, 0⟩

/-- The current interval (R166). -/
structure Interval where
  start : SiteTime
  stop : SiteTime
  acc : Six
  peak : Nat
  partialStart : Bool
  meterLost : Bool
  cycles : Nat
  lostCycles : Nat
  deriving DecidableEq, Repr

/-- A closed interval record (R169). -/
structure IntervalRecord where
  number : Word32
  start : SiteTime
  stop : SiteTime
  wh : Six
  peak : Nat
  cycles : Nat
  lostCycles : Nat
  mergedCount : Nat
  timeChanged : Bool
  partialStart : Bool
  meterLost : Bool
  merged : Bool
  deriving DecidableEq, Repr

/-- The Interval Meter. -/
structure IntervalMeter where
  /-- The site clock; `none` while unset (R164). -/
  clock : Option SiteTime
  current : Option Interval
  carries : Six
  /-- Oldest first (R170). -/
  pendingRecords : List IntervalRecord
  nextNumber : Word32
  /-- The last cycle duration in ms; `none` until a set is integrated (R167, R176). -/
  lastCycle : Option Nat
  /-- Measurement sets handed over by the CLC and not yet taken, oldest first (R29, R167). -/
  inbox : List MeasurementSet
  deriving DecidableEq, Repr

/-! ## Messages -/

/-- The result codes of R185, in the order of their values. -/
inductive ResultCode where
  | ok
  | clamped
  | denied
  | badArg
  | badLength
  | unknownKind
  | unknown
  | busy
  | tooLate
  | noRoom
  | storeFull
  | incomplete
  | noPlan
  | noVehicle
  | noContext
  | chainFull
  | conflict
  | clockUnset
  | notActive
  deriving DecidableEq, Repr

/-- The causes of a withdrawal (R87). -/
inductive WithdrawCause where
  | unplugged
  | fault
  | silent
  | unscheduled
  deriving DecidableEq, Repr

/-- The causes a continuation is opened for (R106, R111). -/
inductive ContinueCause where
  | transfer
  | rollover
  deriving DecidableEq, Repr

/-- The reset causes (R197). -/
inductive ResetCause where
  | power
  | pin
  | restart
  deriving DecidableEq, Repr

/-- The SESSION_EVENT notices of the Session Manager. -/
inductive SessionEvent where
  | started (record : RecordId) (bay : BayId) (plan : Option PlanId) (cls : Fin 3) (startSeq : Word32)
  | authTimeout (record : RecordId) (bay : BayId)
  | withdrawn (record : RecordId) (bay : BayId) (cause : WithdrawCause)
  | suspended (record : RecordId) (bay : BayId) (reason : SuspensionReason)
  | resumed (record : RecordId) (bay : BayId)
  | chargeState (record : RecordId) (bay : BayId) (charge : ChargeState) (lastGrant : Nat)
  | closed (head : RecordId) (bay : BayId) (reason : EndReason) (metered depth : Nat)
  | transferring (record : RecordId) (bay target : BayId) (deadline : Option SiteTime)
  | continued (old new : RecordId) (bay : BayId) (depth : Nat) (cause : ContinueCause)
  deriving DecidableEq, Repr

/-- The ALARM notices of the Allocation Engine (R52, R53). -/
inductive Alarm where
  | importLimit (sequence : Word32) (glim : Nat) (source : LimitSource) (shopLoad : Nat) (shortfall : Int)
  | importClear (sequence : Word32)
  | meterLost (sequence : Word32) (fallbackPool : Nat)
  deriving DecidableEq, Repr

/-- The notices of R186; RECEIPT carries the resent flag of R154. -/
inductive Notice where
  | start (cause : ResetCause) (defaults : Bool)
  | authRequest (bay : BayId) (requestId : Nat) (token : Option Token) (deadline : Option SiteTime)
  | session (event : SessionEvent)
  | bayNoContext (bay : BayId)
  | bayReserved (bay : BayId) (record : RecordId)
  | receipt (receipt : Receipt) (resent : Bool)
  | interval (record : IntervalRecord)
  | alarm (alarm : Alarm)
  deriving DecidableEq, Repr

/-- The settings of the budget settings table (R55). -/
structure BudgetSettings where
  importLimit : Nat
  margin : Nat
  reserveFloor : Nat
  chargeStop : Nat
  exportLimit : Option Nat
  probeStep : Nat
  fallbackPool : Nat
  deriving DecidableEq, Repr

/-- A node in the node section of GET_STATUS (R35). -/
structure NodeFigures where
  standing : Standing
  holdCount : Nat
  mean : Int
  goodFrames : Word32
  correctedFrames : Word32
  discardedFrames : Word32
  noReplies : Word32
  deriving DecidableEq, Repr

/-- The reply contents of GET_STATUS: budget summary (R55), node section (R35), shed section (R73). -/
structure StatusFigures where
  grantSet : Option GrantSet
  /-- The overlay's limit and its remaining duration in whole seconds, rounded up. -/
  overlay : Option (Nat × Nat)
  importLatch : Bool
  meterLostLatch : Bool
  budget : BudgetSettings
  nodes : Vector NodeFigures 10
  batteryCharge : Nat
  batteryMaxDischarge : Nat
  batteryMaxCharge : Nat
  cycleNumber : Word32
  periodIndex : Nat
  windowFrom : Nat
  windowTo : Nat
  shedStack : List ShedEntry
  unlisted : List ShedEntry
  overflowCount : Word32
  shedStackDepth : Nat
  overflowPolicy : OverflowPolicy
  shedHold : Nat
  restoreMargin : Nat
  deriving DecidableEq, Repr

/-- A chain's figures in GET_SESSION (R99, R116, R146). -/
structure ChainFigures where
  head : RecordId
  root : RecordId
  depth : Nat
  metered : Nat
  idleMs : Nat
  idleSeconds : Nat
  idleFee : Nat
  estimate : Nat
  /-- For a CLOSED member, its chain's place in the waiting-chain queue, 1 the oldest. -/
  waitingPlace : Option Nat
  deriving DecidableEq, Repr

/-- The reply contents of GET_SESSION (R99, R116, R146). -/
inductive SessionFigures where
  /-- A FREE record: the state alone. -/
  | freeRecord
  /-- Every field of the record, the cost of each of its segments, and its chain's figures. -/
  | record (record : Record) (costs : List Nat) (chain : ChainFigures)
  deriving DecidableEq, Repr

/-- The plan section's page in GET_PLAN (R133). -/
structure PageFigures where
  state : PageState
  label : Label
  useLevel : Nat
  idleRate : Nat
  idleGrace : Nat
  idleCap : Option Nat
  pins : Nat
  slots : Vector Triple 48
  deriving DecidableEq, Repr

/-- A page in the pool section of GET_PLAN (R133). -/
structure PoolFigures where
  state : PageState
  pins : Nat
  label : Label
  /-- How many directory entries name it. -/
  named : Nat
  deriving DecidableEq, Repr

/-- The reply contents of GET_PLAN (R133). -/
structure PlanFigures where
  entry : Option PlanEntry
  isProtected : Bool
  page : Option PageFigures
  pool : Vector PoolFigures 12
  /-- The staging page, the owner port and the number of slots written. -/
  staging : Option (PageId × Port × Nat)
  deriving DecidableEq, Repr

/-- The reply contents of GET_INTERVAL (R175). -/
structure IntervalFigures where
  clock : Option SiteTime
  /-- The current interval and the six carries, when the clock is set. -/
  current : Option (Interval × Six)
  pendingRecords : List IntervalRecord
  nextNumber : Word32
  intervalLength : Nat
  demandTarget : Nat
  /-- `none` when the guard is invalid. -/
  guard : Option Nat
  deriving DecidableEq, Repr

/-- The queue summary of R159: the numbers held with the head record ids, the next number, the chains waiting. -/
structure QueueSummary where
  held : List (Word32 × RecordId)
  nextNumber : Word32
  waiting : Nat
  deriving DecidableEq, Repr

/-- The contents of a reply after its head (R183). -/
inductive Contents where
  /-- The head alone. -/
  | nothing
  | status (figures : StatusFigures)
  | bay (entry : Bay) (active : Masks)
  | session (figures : SessionFigures)
  | plan (figures : PlanFigures)
  | schedule (staged active : Vector Masks 16) (pendingCopy : Option (Vector Masks 16))
  | interval (figures : IntervalFigures)
  /-- AUTHORIZE: the record id and the start sequence number. -/
  | authorised (record : RecordId) (startSeq : Word32)
  /-- TRANSFER: the transfer deadline. -/
  | deadline (deadline : Option SiteTime)
  /-- RECEIPT_ACK: the number acknowledged and the number issued for a drained chain. -/
  | acknowledged (number : Word32) (issued : Option Word32)
  | queue (summary : QueueSummary)
  /-- PAGE_OPEN and PAGE_DISCARD: the page. -/
  | page (page : PageId)
  /-- PAGE_WRITE: the slots marked after the write. -/
  | slotsWritten (count : Nat)
  /-- PAGE_PUBLISH INCOMPLETE: the lowest slot not written and the number written. -/
  | unwritten (lowest written : Nat)
  /-- PAGE_PUBLISH OK: the published page, and each old page with the state it is left in. -/
  | published (page : PageId) (old : List (PageId × PageState))
  /-- PLAN_CLEAR OK: the page and the state it is left in. -/
  | cleared (page : PageId) (state : PageState)
  /-- COMMIT_SCHEDULE CONFLICT: whether the slot is a downstream one, its index, the two lowest bays that hold it. -/
  | clash (downstream : Bool) (slot : Nat) (first second : BayId)
  /-- SET_CLOCK: the number of the record closed or merged into. -/
  | intervalClosed (number : Option Word32)
  /-- INTERVAL_ACK UNKNOWN: the numbers of the records pending. -/
  | intervalNumbers (numbers : List Word32)
  /-- INTERVAL_ACK OK: the record that is now oldest. -/
  | oldestInterval (record : Option IntervalRecord)
  /-- SET_SETTING: the value taken, whether a save is in flight, whether the stored image is valid. -/
  | setting (value : Nat) (saving imageValid : Bool)
  deriving DecidableEq, Repr

/-- A reply (R183): the head's result code, occupancy, error count and dropped count, then the contents. -/
structure Reply where
  code : ResultCode
  occupancy : Nat
  errors : Word32
  dropped : Word32
  contents : Contents
  deriving DecidableEq, Repr

/-- The body of a message the part sends. -/
inductive Body where
  | reply (reply : Reply)
  /-- A notice with the site-clock time at which it was raised, absent while the clock is unset. -/
  | notice (time : Option SiteTime) (notice : Notice)
  deriving DecidableEq, Repr

/-- A message in a transmit queue (R187). `droppedFlag` is its DROPPED flag, set when its sending begins (R184). -/
structure Message where
  role : Byte
  tag : Word16
  kind : Byte
  droppedFlag : Bool
  body : Body
  deriving DecidableEq, Repr

/-- A request in a receive queue (R179). -/
structure Request where
  role : Byte
  tag : Word16
  kind : Byte
  body : List Byte
  deriving DecidableEq, Repr

/-- A port's receiver (R178): the bytes taken so far stand after the start byte. -/
inductive Receiver where
  | hunting
  | inMessage (taken : List Byte)
  deriving DecidableEq, Repr

/-- How far the oldest request of a receive queue has come (R180, R181). -/
inductive Service where
  /-- Not yet checked, or no request is queued. -/
  | unchecked
  /-- It passed the checks of R181 at this effective level and stands at its owning block. -/
  | handed (level : Nat)
  /-- Its owning block answers it at the completion of an operation. -/
  | awaiting
  deriving DecidableEq, Repr

/-- A port context (R177). -/
structure PortContext where
  receiver : Receiver
  /-- Oldest first. -/
  receiveQueue : List Request
  service : Service
  /-- Oldest first; the oldest is being sent. -/
  transmitQueue : List Message
  errorCount : Word32
  droppedCount : Word32
  dropMark : Bool
  /-- The last message the port has sent whole. -/
  lastSent : Option Message
  deriving DecidableEq, Repr

/-- The Message Ports. -/
structure Ports where
  portA : PortContext
  portB : PortContext
  deriving DecidableEq, Repr

/-! ## The part -/

/-- The last frame the part has driven on each field line, preamble to CRC; `none` since the last reset. -/
structure Lines where
  bayLink : Option (List Byte)
  canopy : Option (List Byte)
  deriving DecidableEq, Repr

/-- The CT816. -/
structure State where
  /-- Bay Link Controller. -/
  blc : BayLink
  /-- Canopy Line Controller. -/
  clc : CanopyLine
  /-- Allocation Engine. -/
  ale : Allocator
  /-- Session Manager. -/
  ssm : Sessions
  /-- Tariff Store. -/
  tfs : Tariffs
  /-- Receipt Queue. -/
  rcq : ReceiptQueue
  /-- Interval Meter. -/
  ivm : IntervalMeter
  /-- Message Ports. -/
  mpt : Ports
  /-- Settings Store. -/
  sst : SettingsStore
  /-- What the part last drove on its two field lines. -/
  lines : Lines
  /-- The commands waiting to be taken, first in first out. -/
  pending : List Instr
  deriving DecidableEq, Repr

/-- A step that stops the machine. The manual gives the part no such step: every command is carried out, refused by a
reply, or found to be no event, so there is no constructor. Safe: no command stops where the part goes on. -/
inductive Fault : Type
  deriving DecidableEq, Repr

/-- A command the model gives no meaning. -/
inductive Refusal where
  /-- Raised by `exec` alone, in the arm of a command that has no meaning yet. Safe: the model stops where the part
  goes on. -/
  | notModelled (mnemonic : String)
  deriving DecidableEq, Repr

/-! ## Reset -/

/-- The masks an enabled bay with empty staged masks expands to: downstream n, upstream 2n and 2n + 1 (R3). -/
def Masks.defaultSlots (b : BayId) : Masks :=
  ⟨1#16 <<< b.val, 3#32 <<< (2 * b.val)⟩

/-- A bay table entry after reset, its link state apart (R21, R72). -/
def Bay.fresh (link : LinkState) : Bay where
  link := link
  missCount := 0
  goodFrames := 0
  correctedFrames := 0
  discardedFrames := 0
  jumpCount := 0
  unbilledWh := 0
  lastStatus := ⟨.unplugged, 0, 0, none⟩
  lastStatusTime := none
  lastCounter := none
  lastPower := 0
  grantLastSent := 0
  session := none
  reservedFor := none
  foreignMark := false
  lastGrant := 0
  shedPlace := .none
  shedSince := none
  recordedStart := none

/-- A node table entry after reset (R36). -/
def Node.fresh : Node := ⟨.lost, 0, 0, 0, 0, 0, 0, 0, 0⟩

/-- The battery node's further fields after reset (R36). -/
def BatteryEntry.fresh : BatteryEntry := ⟨false, 0, 0, 0, 0, 0, 0⟩

/-- The Allocation Engine after reset (R56, R76). -/
def Allocator.fresh : Allocator := ⟨[], none, none, none, false, false, [], [], 0⟩

/-- The Session Manager after reset (R82, R88, R100). -/
def Sessions.fresh : Sessions :=
  ⟨Vector.replicate 32 Record.cleared, 0, 0, [], Vector.replicate 16 false, Vector.replicate 16 false⟩

/-- The Tariff Store after reset (R134). -/
def Tariffs.fresh : Tariffs := ⟨Vector.replicate 16 none, Vector.replicate 12 Page.cleared, none⟩

/-- The Receipt Queue after reset (R163). -/
def ReceiptQueue.fresh : ReceiptQueue := ⟨[], 1⟩

/-- The Interval Meter after reset (R176). -/
def IntervalMeter.fresh : IntervalMeter := ⟨none, none, Six.zero, [], 1, none, []⟩

/-- A port context after reset (R177). -/
def PortContext.fresh : PortContext := ⟨.hunting, [], .unchecked, [], 0, 0, false, none⟩

/-- The machine right after its first power-on reset, at the end of start-up (R196–R198): the stored image has never
been written and is found invalid (DESIGN CHOICE, assumption 3), so the defaults are in force, the START notice, cause
POWER with DEFAULTS set, is on its way on Port A, and the first sweep and the first cycle have begun. -/
def State.reset : State where
  blc :=
    { bays := Vector.replicate 16 (Bay.fresh .scheduledWait)
      staged := Vector.replicate 16 ⟨0, 0⟩
      pendingCopy := none
      active := Vector.ofFn Masks.defaultSlots
      sweepNumber := 0
      sweepBegun := true
      sweepPeriodTaken := 500
      grantSource := none
      heard := Vector.replicate 16 false }
  clc :=
    { nodes := Vector.replicate 10 Node.fresh
      battery := BatteryEntry.fresh
      cycleNumber := 0
      periodIndex := 0
      polled := false
      periodsTaken := 20
      lengthTaken := 100
      windowFrom := 4
      windowTo := 19 }
  ale := Allocator.fresh
  ssm := Sessions.fresh
  tfs := Tariffs.fresh
  rcq := ReceiptQueue.fresh
  ivm := IntervalMeter.fresh
  mpt :=
    { portA :=
        { PortContext.fresh with
          transmitQueue := [⟨0, 0, 0x40, false, .notice none (.start .power true)⟩] }
      portB := PortContext.fresh }
  sst := ⟨Settings.defaults, ⟨false, Settings.defaults⟩, .idle⟩
  lines := ⟨none, none⟩
  pending := []

end Sys2Proof.Machine
end

