-- ==== Sys2Proof/Machine/Flags.lean ====
section
/-! DEFINITION. The coded values and flag bytes that stand in messages and frames: result codes (R185), the envelope's
flags byte (R187), end reasons (R191), reset causes (R198) and display codes (R9). -/

namespace Sys2Proof.Machine

/-- The value of a result code (R185). -/
def ResultCode.value : ResultCode → Byte
  | .ok => 0
  | .clamped => 1
  | .denied => 2
  | .badArg => 3
  | .badLength => 4
  | .unknownKind => 5
  | .unknown => 6
  | .busy => 7
  | .tooLate => 8
  | .noRoom => 9
  | .storeFull => 10
  | .incomplete => 11
  | .noPlan => 12
  | .noVehicle => 13
  | .noContext => 14
  | .chainFull => 15
  | .conflict => 16
  | .clockUnset => 17
  | .notActive => 18

/-- Whether a result code says that the request was carried out (R185). -/
def ResultCode.carriedOut (c : ResultCode) : Bool := c = .ok || c = .clamped

/-- The value of an end reason in a receipt (R191). -/
def EndReason.value : EndReason → Byte
  | .stopped => 0
  | .unplugged => 1
  | .lost => 2
  | .linkLost => 3
  | .capReached => 4
  | .transferTimeout => 5
  | .noContext => 6
  | .splitLimit => 7

/-- The value of a reset cause (R198). -/
def ResetCause.value : ResetCause → Byte
  | .power => 0
  | .pin => 1
  | .restart => 2

/-- Whether a message is a RECEIPT notice sent by RECEIPT_GET (R154, R186). -/
def Body.resent : Body → Bool
  | .notice _ (.receipt _ resent) => resent
  | _ => false

/-- Whether a message is a reply. -/
def Body.isReply : Body → Bool
  | .reply _ => true
  | .notice _ _ => false

/-- The flags byte of a message: bit 0 REPLY, bit 1 NOTICE, bit 2 RESENT, bit 3 DROPPED (R187). -/
def Message.flags (m : Message) : Byte :=
  BitVec.ofBool false ++ BitVec.ofBool false ++ BitVec.ofBool false ++ BitVec.ofBool false ++
    BitVec.ofBool m.droppedFlag ++ BitVec.ofBool m.body.resent ++ BitVec.ofBool (!m.body.isReply) ++
    BitVec.ofBool m.body.isReply

/-- The display codes of a GRANT frame (R9). -/
inductive DisplayCode where
  | idle
  | awaitingAuth
  | charging
  | paused
  | ended
  | reserved
  | unavailable
  deriving DecidableEq, Repr

/-- The value of a display code (R9). -/
def DisplayCode.value : DisplayCode → Byte
  | .idle => 0
  | .awaitingAuth => 1
  | .charging => 2
  | .paused => 3
  | .ended => 4
  | .reserved => 5
  | .unavailable => 6

/-- A vehicle state's value in a STATUS frame; `none` above 3 (R9, R12). -/
def vehicleOf (x : Byte) : Option VehicleState :=
  match x.toNat with
  | 0 => some .unplugged
  | 1 => some .plugged
  | 2 => some .demanding
  | 3 => some .fault
  | _ => none

/-- The byte of a vehicle state in a STATUS frame (R9). -/
def VehicleState.value : VehicleState → Byte
  | .unplugged => 0
  | .plugged => 1
  | .demanding => 2
  | .fault => 3

/-- A vehicle is plugged in every state but UNPLUGGED (R80). -/
def VehicleState.isPlugged (v : VehicleState) : Bool := v != .unplugged

end Sys2Proof.Machine
end

