-- ==== Sys2Proof/Machine/Operands.lean ====
section
/-! DEFINITION. The operands of requests: which values of a field name a bay, a record, a plan, a class or a use level,
and how caps are given (R190). A `none` is what the owning block answers with BAD_ARG. -/

namespace Sys2Proof.Machine

/-- A number below `n`. -/
def below (n x : Nat) : Option (Fin n) := if h : x < n then some ⟨x, h⟩ else none

/-- A bay 0–15. -/
def bayOperand (x : Byte) : Option BayId := below 16 x.toNat

/-- A session record 0–31. -/
def recordOperand (x : Byte) : Option RecordId := below 32 x.toNat

/-- A request id 1–32, which names the record one below it. -/
def requestIdOperand (x : Byte) : Option RecordId := if x = 0 then none else below 32 (x.toNat - 1)

/-- A plan 0–15. -/
def planOperand (x : Byte) : Option PlanId := below 16 x.toNat

/-- A class 0–2. -/
def classOperand (x : Byte) : Option (Fin 3) := below 3 x.toNat

/-- A use level 0–2. -/
def useLevelOperand (x : Byte) : Option Nat := if x.toNat ≤ 2 then some x.toNat else none

/-- The caps of AUTHORIZE, energy and cost, each present or absent. A cap presence above 3 and a present cap of 0 are
refused; a cap whose presence is not given is ignored (R83, R190). -/
def capsOperand (presence : Byte) (energy cost : Word32) : Option (Option Nat × Option Nat) :=
  let hasEnergy := presence.getLsbD 0
  let hasCost := presence.getLsbD 1
  if 3 < presence.toNat then none
  else if hasEnergy && energy == 0 then none
  else if hasCost && cost == 0 then none
  else some (if hasEnergy then some energy.toNat else none, if hasCost then some cost.toNat else none)

/-- The operands that AUTHORIZE and a till voucher share: bay, plan, class and caps. -/
structure SessionOperands where
  bay : BayId
  plan : PlanId
  cls : Fin 3
  energyCap : Option Nat
  costCap : Option Nat
  deriving DecidableEq, Repr

/-- The first check of R83 and R84, the request id apart. -/
def sessionOperands (bay plan cls capPresence : Byte) (energyCap costCap : Word32) : Option SessionOperands :=
  match bayOperand bay, planOperand plan, classOperand cls, capsOperand capPresence energyCap costCap with
  | some b, some pl, some c, some (e, k) => some ⟨b, pl, c, e, k⟩
  | _, _, _, _ => none

/-- An optional field's presence byte: 0 absent, 1 present (R188). Another value is refused (DEDUCED, assumption 16). -/
def presenceOperand (x : Byte) : Option Bool :=
  if x = 0 then some false else if x = 1 then some true else none

/-- A run of price triples, six bytes each, most significant byte first; `none` when the bytes are no whole number of
triples (R121). -/
def triplesOperand : List Byte → Option (List Triple)
  | [] => some []
  | s1 :: s0 :: b1 :: b0 :: g1 :: g0 :: rest =>
    match triplesOperand rest with
    | some ts => some (⟨s1.toNat * 256 + s0.toNat, b1.toNat * 256 + b0.toNat, g1.toNat * 256 + g0.toNat⟩ :: ts)
    | none => none
  | _ => none

end Sys2Proof.Machine
end

