-- ==== Sys2Proof/Machine/Bits.lean ====
section
/-! DEFINITION. Bytes and bits: big-endian fields (R188), the CRC-16 (R10) and the coded header byte (R11, R189). -/

namespace Sys2Proof.Machine

/-- The number a run of bytes holds, most significant byte first (R188). -/
def beNat (bytes : List Byte) : Nat := bytes.foldl (fun n b => n * 256 + b.toNat) 0

/-- `n` in `width` bytes, most significant byte first (R188). -/
def beBytes : (width n : Nat) → List Byte
  | 0, _ => []
  | width + 1, n => BitVec.ofNat 8 (n / 256 ^ width) :: beBytes width n

/-- A 32-bit two's complement field (R188). -/
def signed32 (w : Word32) : Int := w.toInt

/-- One bit of the CRC-16 with polynomial x^16 + x^12 + x^5 + 1 (R10). -/
def crcShift (c : Word16) : Word16 :=
  if c.msb then (c <<< 1) ^^^ 0x1021#16 else c <<< 1

/-- One byte of the CRC-16, most significant bit first (R10). -/
def crcByte (c : Word16) (b : Byte) : Word16 :=
  crcShift (crcShift (crcShift (crcShift (crcShift (crcShift (crcShift (crcShift
    (c ^^^ (b.zeroExtend 16 <<< 8)))))))))

/-- The CRC-16 of a run of bytes: initial value 0xFFFF, no reflection, no final inversion (R10). -/
def crc16 (bytes : List Byte) : Word16 := bytes.foldl crcByte 0xFFFF#16

/-- The two CRC bytes, high byte first (R10). -/
def crcBytes (bytes : List Byte) : List Byte := beBytes 2 (crc16 bytes).toNat

/-- Code position `n` (1–7) of a header byte, in bit n − 1; position 8 is p3, in bit 7 (R189). -/
def codeBit (header : Byte) (n : Nat) : Bool := header.getLsbD (n - 1)

/-- The header byte of a kind: p0, p1, k0, p2, k1, k2, k3 in positions 1–7 and p3 making the ones even (R11, R189). -/
def headerOf (kind : BitVec 4) : Byte :=
  let k0 := kind.getLsbD 0
  let k1 := kind.getLsbD 1
  let k2 := kind.getLsbD 2
  let k3 := kind.getLsbD 3
  let p0 := k0 ^^ k1 ^^ k3
  let p1 := k0 ^^ k2 ^^ k3
  let p2 := k1 ^^ k2 ^^ k3
  let p3 := p0 ^^ p1 ^^ k0 ^^ p2 ^^ k1 ^^ k2 ^^ k3
  BitVec.ofBool p3 ++ BitVec.ofBool k3 ++ BitVec.ofBool k2 ++ BitVec.ofBool k1 ++ BitVec.ofBool p2 ++
    BitVec.ofBool k0 ++ BitVec.ofBool p1 ++ BitVec.ofBool p0

/-- The kind bits a header byte holds (R11). -/
def kindBits (header : Byte) : BitVec 4 :=
  BitVec.ofBool (codeBit header 7) ++ BitVec.ofBool (codeBit header 6) ++ BitVec.ofBool (codeBit header 5) ++
    BitVec.ofBool (codeBit header 3)

/-- The syndrome s0 + 2 s1 + 4 s2 of a received header byte (R11). -/
def syndrome (header : Byte) : Nat :=
  let s0 := codeBit header 1 ^^ codeBit header 3 ^^ codeBit header 5 ^^ codeBit header 7
  let s1 := codeBit header 2 ^^ codeBit header 3 ^^ codeBit header 6 ^^ codeBit header 7
  let s2 := codeBit header 4 ^^ codeBit header 5 ^^ codeBit header 6 ^^ codeBit header 7
  s0.toNat + 2 * s1.toNat + 4 * s2.toNat

/-- The overall parity result q: whether the received byte has an odd number of ones (R11). -/
def oddOnes (header : Byte) : Bool :=
  codeBit header 1 ^^ codeBit header 2 ^^ codeBit header 3 ^^ codeBit header 4 ^^ codeBit header 5 ^^
    codeBit header 6 ^^ codeBit header 7 ^^ codeBit header 8

/-- What the header code makes of a received header byte (R11). -/
inductive HeaderOutcome where
  /-- Two bits are wrong. -/
  | doubleError
  /-- The kind, the header byte after any correction, and whether a bit was corrected. -/
  | read (kind : BitVec 4) (header : Byte) (corrected : Bool)
  deriving DecidableEq, Repr

/-- The table of R11. -/
def decodeHeader (header : Byte) : HeaderOutcome :=
  if oddOnes header then
    let fixed := if syndrome header = 0 then header ^^^ 0x80#8 else header ^^^ (1#8 <<< (syndrome header - 1))
    .read (kindBits fixed) fixed true
  else if syndrome header = 0 then .read (kindBits header) header false
  else .doubleError

end Sys2Proof.Machine
end

