-- ==== Sys2Proof/Decode.lean ====
section
/-! DEFINITION. The request kinds of R181 and the bodies of the 30 requests: which command a request spells, and the
bytes that spell a command. No row of the operation and event table carries bits of its own, so `decodeTableWord`
reads none. -/

namespace Sys2Proof

open Sys2Proof.Machine

/-- The request kinds of R181, in the table's order. AUTHORIZE is one kind; its request id 0 is the till voucher. -/
inductive RequestKind where
  | getStatus
  | getBay
  | getSession
  | getPlan
  | getSchedule
  | getInterval
  | authorize
  | deny
  | stopSession
  | setClass
  | transfer
  | cancelTransfer
  | receiptAck
  | receiptGet
  | setReceiptBase
  | pageOpen
  | pageWrite
  | pagePublish
  | pageDiscard
  | planClear
  | stageSlots
  | commitSchedule
  | curtail
  | curtailEnd
  | setClock
  | intervalAck
  | setSetting
  | saveSettings
  | restart
  deriving DecidableEq, Repr

/-- The request kind a kind byte names; `none` for a kind that is not a request kind (R181). -/
def requestKind (kind : Byte) : Option RequestKind :=
  match kind.toNat with
  | 0x01 => some .getStatus
  | 0x02 => some .getBay
  | 0x03 => some .getSession
  | 0x04 => some .getPlan
  | 0x05 => some .getSchedule
  | 0x06 => some .getInterval
  | 0x10 => some .authorize
  | 0x11 => some .deny
  | 0x12 => some .stopSession
  | 0x13 => some .setClass
  | 0x14 => some .transfer
  | 0x15 => some .cancelTransfer
  | 0x18 => some .receiptAck
  | 0x19 => some .receiptGet
  | 0x1A => some .setReceiptBase
  | 0x20 => some .pageOpen
  | 0x21 => some .pageWrite
  | 0x22 => some .pagePublish
  | 0x23 => some .pageDiscard
  | 0x24 => some .planClear
  | 0x28 => some .stageSlots
  | 0x29 => some .commitSchedule
  | 0x2C => some .curtail
  | 0x2D => some .curtailEnd
  | 0x30 => some .setClock
  | 0x31 => some .intervalAck
  | 0x38 => some .setSetting
  | 0x39 => some .saveSettings
  | 0x3A => some .restart
  | _ => none

/-- The kind byte of a request kind (R181). -/
def kindByte : RequestKind → Byte
  | .getStatus => 0x01
  | .getBay => 0x02
  | .getSession => 0x03
  | .getPlan => 0x04
  | .getSchedule => 0x05
  | .getInterval => 0x06
  | .authorize => 0x10
  | .deny => 0x11
  | .stopSession => 0x12
  | .setClass => 0x13
  | .transfer => 0x14
  | .cancelTransfer => 0x15
  | .receiptAck => 0x18
  | .receiptGet => 0x19
  | .setReceiptBase => 0x1A
  | .pageOpen => 0x20
  | .pageWrite => 0x21
  | .pagePublish => 0x22
  | .pageDiscard => 0x23
  | .planClear => 0x24
  | .stageSlots => 0x28
  | .commitSchedule => 0x29
  | .curtail => 0x2C
  | .curtailEnd => 0x2D
  | .setClock => 0x30
  | .intervalAck => 0x31
  | .setSetting => 0x38
  | .saveSettings => 0x39
  | .restart => 0x3A

/-- A row of the request table of R181: the request's level and the least and greatest body length. -/
structure RequestRow where
  level : Nat
  least : Nat
  greatest : Nat
  deriving DecidableEq, Repr

/-- The level and body bytes of a request kind (R181). -/
def requestRow : RequestKind → RequestRow
  | .getStatus => ⟨2, 0, 0⟩
  | .getBay => ⟨2, 1, 1⟩
  | .getSession => ⟨2, 1, 1⟩
  | .getPlan => ⟨2, 1, 1⟩
  | .getSchedule => ⟨1, 0, 0⟩
  | .getInterval => ⟨1, 0, 0⟩
  | .authorize => ⟨2, 13, 13⟩
  | .deny => ⟨2, 2, 2⟩
  | .stopSession => ⟨2, 1, 1⟩
  | .setClass => ⟨1, 2, 2⟩
  | .transfer => ⟨1, 2, 2⟩
  | .cancelTransfer => ⟨1, 1, 1⟩
  | .receiptAck => ⟨2, 4, 4⟩
  | .receiptGet => ⟨2, 4, 4⟩
  | .setReceiptBase => ⟨1, 4, 4⟩
  | .pageOpen => ⟨1, 15, 15⟩
  | .pageWrite => ⟨1, 8, 74⟩
  | .pagePublish => ⟨1, 3, 3⟩
  | .pageDiscard => ⟨1, 0, 0⟩
  | .planClear => ⟨1, 1, 1⟩
  | .stageSlots => ⟨1, 7, 7⟩
  | .commitSchedule => ⟨1, 0, 0⟩
  | .curtail => ⟨1, 8, 8⟩
  | .curtailEnd => ⟨1, 0, 0⟩
  | .setClock => ⟨1, 6, 6⟩
  | .intervalAck => ⟨1, 4, 4⟩
  | .setSetting => ⟨0, 6, 6⟩
  | .saveSettings => ⟨0, 0, 0⟩
  | .restart => ⟨0, 0, 0⟩

/-- Two bytes as a 16-bit field (R188). -/
def word16 (h l : Byte) : Word16 := h ++ l

/-- Four bytes as a 32-bit field (R188). -/
def word32 (a b c d : Byte) : Word32 := a ++ b ++ c ++ d

/-- The bytes of a 16-bit field (R188). -/
def bytes16 (w : Word16) : List Byte := [w.extractLsb' 8 8, w.extractLsb' 0 8]

/-- The bytes of a 32-bit field (R188). -/
def bytes32 (w : Word32) : List Byte :=
  [w.extractLsb' 24 8, w.extractLsb' 16 8, w.extractLsb' 8 8, w.extractLsb' 0 8]

/-- The eight bytes of a label, its first character first (R118). -/
def labelBytes (l : Label) : List Byte :=
  [l.extractLsb' 56 8, l.extractLsb' 48 8, l.extractLsb' 40 8, l.extractLsb' 32 8, l.extractLsb' 24 8,
    l.extractLsb' 16 8, l.extractLsb' 8 8, l.extractLsb' 0 8]

/-- The command that a request of this kind and body spells on port `p`: the fields in the order the owning rule names
them, most significant byte first (R188), and those of AUTHORIZE by R190. `none` where the body does not have the
kind's length (R181). -/
def bodyOf (p : Port) (kind : RequestKind) (body : List Byte) : Option Instr :=
  match kind with
  | .getStatus => match body with
    | [] => some (.getStatus p)
    | _ => none
  | .getBay => match body with
    | [bay] => some (.getBay p bay)
    | _ => none
  | .getSession => match body with
    | [record] => some (.getSession p record)
    | _ => none
  | .getPlan => match body with
    | [plan] => some (.getPlan p plan)
    | _ => none
  | .getSchedule => match body with
    | [] => some (.getSchedule p)
    | _ => none
  | .getInterval => match body with
    | [] => some (.getInterval p)
    | _ => none
  | .authorize => match body with
    | [bay, requestId, plan, cls, caps, e3, e2, e1, e0, c3, c2, c1, c0] =>
      if requestId = 0 then some (.tillVoucher p bay plan cls caps (word32 e3 e2 e1 e0) (word32 c3 c2 c1 c0))
      else some (.authorize p bay requestId plan cls caps (word32 e3 e2 e1 e0) (word32 c3 c2 c1 c0))
    | _ => none
  | .deny => match body with
    | [bay, requestId] => some (.deny p bay requestId)
    | _ => none
  | .stopSession => match body with
    | [record] => some (.stopSession p record)
    | _ => none
  | .setClass => match body with
    | [record, cls] => some (.setClass p record cls)
    | _ => none
  | .transfer => match body with
    | [record, target] => some (.transfer p record target)
    | _ => none
  | .cancelTransfer => match body with
    | [record] => some (.cancelTransfer p record)
    | _ => none
  | .receiptAck => match body with
    | [n3, n2, n1, n0] => some (.receiptAck p (word32 n3 n2 n1 n0))
    | _ => none
  | .receiptGet => match body with
    | [n3, n2, n1, n0] => some (.receiptGet p (word32 n3 n2 n1 n0))
    | _ => none
  | .setReceiptBase => match body with
    | [n3, n2, n1, n0] => some (.setReceiptBase p (word32 n3 n2 n1 n0))
    | _ => none
  | .pageOpen => match body with
    | [l0, l1, l2, l3, l4, l5, l6, l7, useLevel, r1, r0, grace, caps, c1, c0] =>
      some (.pageOpen p (l0 ++ l1 ++ l2 ++ l3 ++ l4 ++ l5 ++ l6 ++ l7) useLevel (word16 r1 r0) grace caps
        (word16 c1 c0))
    | _ => none
  | .pageWrite => match body with
    | first :: count :: entries =>
      if 6 ≤ entries.length ∧ entries.length ≤ 72 then some (.pageWrite p first count entries) else none
    | _ => none
  | .pagePublish => match body with
    | [p1, p0, useLevel] => some (.pagePublish p (word16 p1 p0) useLevel)
    | _ => none
  | .pageDiscard => match body with
    | [] => some (.pageDiscard p)
    | _ => none
  | .planClear => match body with
    | [plan] => some (.planClear p plan)
    | _ => none
  | .stageSlots => match body with
    | [bay, d1, d0, u3, u2, u1, u0] => some (.stageSlots p bay (word16 d1 d0) (word32 u3 u2 u1 u0))
    | _ => none
  | .commitSchedule => match body with
    | [] => some (.commitSchedule p)
    | _ => none
  | .curtail => match body with
    | [l3, l2, l1, l0, d3, d2, d1, d0] => some (.curtail p (word32 l3 l2 l1 l0) (word32 d3 d2 d1 d0))
    | _ => none
  | .curtailEnd => match body with
    | [] => some (.curtailEnd p)
    | _ => none
  | .setClock => match body with
    | [d1, d0, m3, m2, m1, m0] => some (.setClock p (word16 d1 d0) (word32 m3 m2 m1 m0))
    | _ => none
  | .intervalAck => match body with
    | [n3, n2, n1, n0] => some (.intervalAck p (word32 n3 n2 n1 n0))
    | _ => none
  | .setSetting => match body with
    | [i1, i0, v3, v2, v1, v0] => some (.setSetting p (word16 i1 i0) (word32 v3 v2 v1 v0))
    | _ => none
  | .saveSettings => match body with
    | [] => some (.saveSettings p)
    | _ => none
  | .restart => match body with
    | [] => some (.restart p)
    | _ => none

/-- The command that a request of this kind byte and body spells on port `p` (R181). -/
def requestOf (p : Port) (kind : Byte) (body : List Byte) : Option Instr :=
  match requestKind kind with
  | some k => bodyOf p k body
  | none => none

/-- The port, kind and body of the request that spells a command; `none` for a command that is no request. -/
def requestBytes : Instr → Option (Port × RequestKind × List Byte)
  | .getStatus p => some (p, .getStatus, [])
  | .getBay p bay => some (p, .getBay, [bay])
  | .getSession p record => some (p, .getSession, [record])
  | .getPlan p plan => some (p, .getPlan, [plan])
  | .getSchedule p => some (p, .getSchedule, [])
  | .getInterval p => some (p, .getInterval, [])
  | .authorize p bay requestId plan cls caps e c =>
    some (p, .authorize, [bay, requestId, plan, cls, caps] ++ bytes32 e ++ bytes32 c)
  | .tillVoucher p bay plan cls caps e c => some (p, .authorize, [bay, 0, plan, cls, caps] ++ bytes32 e ++ bytes32 c)
  | .deny p bay requestId => some (p, .deny, [bay, requestId])
  | .stopSession p record => some (p, .stopSession, [record])
  | .setClass p record cls => some (p, .setClass, [record, cls])
  | .transfer p record target => some (p, .transfer, [record, target])
  | .cancelTransfer p record => some (p, .cancelTransfer, [record])
  | .receiptAck p n => some (p, .receiptAck, bytes32 n)
  | .receiptGet p n => some (p, .receiptGet, bytes32 n)
  | .setReceiptBase p n => some (p, .setReceiptBase, bytes32 n)
  | .pageOpen p label useLevel rate grace caps cap =>
    some (p, .pageOpen, labelBytes label ++ [useLevel] ++ bytes16 rate ++ [grace, caps] ++ bytes16 cap)
  | .pageWrite p first count entries => some (p, .pageWrite, first :: count :: entries)
  | .pagePublish p plans useLevel => some (p, .pagePublish, bytes16 plans ++ [useLevel])
  | .pageDiscard p => some (p, .pageDiscard, [])
  | .planClear p plan => some (p, .planClear, [plan])
  | .stageSlots p bay down up => some (p, .stageSlots, bay :: (bytes16 down ++ bytes32 up))
  | .commitSchedule p => some (p, .commitSchedule, [])
  | .curtail p limit duration => some (p, .curtail, bytes32 limit ++ bytes32 duration)
  | .curtailEnd p => some (p, .curtailEnd, [])
  | .setClock p day ms => some (p, .setClock, bytes16 day ++ bytes32 ms)
  | .intervalAck p n => some (p, .intervalAck, bytes32 n)
  | .setSetting p id value => some (p, .setSetting, bytes16 id ++ bytes32 value)
  | .saveSettings p => some (p, .saveSettings, [])
  | .restart p => some (p, .restart, [])
  | .saveComplete => none
  | .powerOn => none
  | .resetPin => none
  | .requestArrival _ _ => none
  | .messageDiscard _ _ => none
  | .interByteTimeout _ _ => none
  | .serviceStart _ => none
  | .transmitComplete _ => none
  | .sweepStart => none
  | .grant _ => none
  | .status _ _ => none
  | .meter _ _ => none
  | .discardedFrame _ _ => none
  | .authTimeout _ => none
  | .resumeDeadlineExpiry _ => none
  | .transferTimeout _ => none
  | .curtailmentExpiry => none
  | .poll => none
  | .canopySample _ _ => none
  | .batterySample _ => none
  | .meterSample _ => none
  | .canopyDiscard _ _ => none
  | .noReply _ _ => none
  | .cycleEnd => none
  | .allocation => none
  | .measurementSetAtIvm => none
  | .boundaryClose => none

/-- The command a word of the operation and event table spells. The table gives no row any bits, so no word spells
one. -/
def decodeTableWord (_nbits _w : Nat) : Option Instr := none

end Sys2Proof
end

