-- ==== Sys2Proof/Machine/Clock.lean ====
section
/-! DEFINITION. The arithmetic of site-clock times on the span of 65,536 days (R164), and the passing of time. -/

namespace Sys2Proof.Machine

/-- The ms of a day. -/
def dayMs : Nat := 86400000

/-- The span of 65,536 days in ms (R164). -/
def clockSpan : Nat := 65536 * dayMs

/-- A site-clock time's position on the span in ms (R164). -/
def SiteTime.position (t : SiteTime) : Nat := t.day.val * dayMs + t.ms.val

/-- The site-clock time at a position, the day number wrapping from 65,535 to 0 (R164). -/
def SiteTime.ofPosition (n : Nat) : SiteTime :=
  ⟨⟨n / dayMs % 65536, Nat.mod_lt _ (by decide)⟩, ⟨n % dayMs, Nat.mod_lt _ (by decide)⟩⟩

/-- A later time, formed by adding a duration in ms on the span (R164). -/
def SiteTime.later (t : SiteTime) (ms : Nat) : SiteTime := SiteTime.ofPosition (t.position + ms)

/-- The position of one time less another's, modulo the span. -/
def SiteTime.since (now t : SiteTime) : Nat := (now.position + clockSpan - t.position) % clockSpan

/-- Whether a clock that shows `now` has reached `t` (R164). -/
def SiteTime.reaches (now t : SiteTime) : Bool := decide (2 * SiteTime.since now t < clockSpan)

/-- The difference of one time less another on the span, negative from half the span on (R164). -/
def SiteTime.minus (a b : SiteTime) : Int :=
  if 2 * SiteTime.since a b < clockSpan then (SiteTime.since a b : Int) else (SiteTime.since a b : Int) - clockSpan

/-- The site clock as a reader sees it: `none` while unset (R164). -/
def State.now (s : State) : Option SiteTime := s.ivm.clock

/-- A deadline `ms` from the present; absent while the clock is unset. -/
def State.deadline (s : State) (ms : Nat) : Option SiteTime := s.now.map (·.later ms)

/-- Whether the site clock has reached a deadline; never while either is absent. -/
def State.expired (s : State) (deadline : Option SiteTime) : Bool :=
  match s.now, deadline with
  | some now, some t => now.reaches t
  | _, _ => false

/-- The tariff slot of a time: its half hour of the day (R131). -/
def SiteTime.tariffSlot (t : SiteTime) : Fin 48 :=
  ⟨t.ms.val / 1800000, by have := t.ms.isLt; omega⟩

/-- `ms` pass on the part's crystal: a set site clock advances (R164) and an active overlay's remaining duration falls,
stopping at 0 (R41). -/
def State.advance (ms : Nat) (s : State) : State :=
  { s with
    ivm := { s.ivm with clock := s.ivm.clock.map (·.later ms) }
    ale := { s.ale with
      overlay := s.ale.overlay.map fun o => { o with remainingMs := o.remainingMs - ms } } }

end Sys2Proof.Machine
end

