-- ==== Sys2Proof/Machine/Ops.lean ====
section
/-! DEFINITION. The named operations over the part's state: reading and writing the entries of its tables, handing
messages to the ports (R183–R186), and answering a request in service (R180). -/

namespace Sys2Proof.Machine

/-! ## Collections of fixed size -/

/-- The bays in ascending order. -/
def allBays : List BayId := [0, 1, 2, 3, 4, 5, 6, 7, 8, 9, 10, 11, 12, 13, 14, 15]

/-- The session records in ascending order. -/
def allRecords : List RecordId :=
  [0, 1, 2, 3, 4, 5, 6, 7, 8, 9, 10, 11, 12, 13, 14, 15, 16, 17, 18, 19, 20, 21, 22, 23, 24, 25, 26, 27, 28, 29, 30,
    31]

/-- The tariff pages in ascending order. -/
def allPages : List PageId := [0, 1, 2, 3, 4, 5, 6, 7, 8, 9, 10, 11]

/-- The plans in ascending order. -/
def allPlans : List PlanId := [0, 1, 2, 3, 4, 5, 6, 7, 8, 9, 10, 11, 12, 13, 14, 15]

/-- The canopy converters, nodes 0–7, in ascending order. -/
def canopyNodes : List (Fin 8) := [0, 1, 2, 3, 4, 5, 6, 7]

/-- A vector with one entry replaced. -/
def put {α : Type} {n : Nat} (v : Vector α n) (i : Fin n) (x : α) : Vector α n := v.set i.val x i.isLt

/-! ## Entries of the tables -/

/-- A bay's entry in the bay table. -/
def State.bay (s : State) (b : BayId) : Bay := s.blc.bays[b.val]

/-- Changes a bay's entry in the bay table. -/
def State.modBay (b : BayId) (f : Bay → Bay) (s : State) : State :=
  { s with blc := { s.blc with bays := put s.blc.bays b (f (s.bay b)) } }

/-- A session record. -/
def State.record (s : State) (r : RecordId) : Record := s.ssm.records[r.val]

/-- Changes a session record. -/
def State.modRecord (r : RecordId) (f : Record → Record) (s : State) : State :=
  { s with ssm := { s.ssm with records := put s.ssm.records r (f (s.record r)) } }

/-- A tariff page. -/
def State.page (s : State) (pg : PageId) : Page := s.tfs.pages[pg.val]

/-- Changes a tariff page. -/
def State.modPage (pg : PageId) (f : Page → Page) (s : State) : State :=
  { s with tfs := { s.tfs with pages := put s.tfs.pages pg (f (s.page pg)) } }

/-- A plan's directory entry; `none` when absent. -/
def State.plan (s : State) (p : PlanId) : Option PlanEntry := s.tfs.plans[p.val]

/-- Writes a plan's directory entry. -/
def State.setPlan (p : PlanId) (e : Option PlanEntry) (s : State) : State :=
  { s with tfs := { s.tfs with plans := put s.tfs.plans p e } }

/-- A node's entry in the node table. -/
def State.node (s : State) (k : NodeId) : Node := s.clc.nodes[k.val]

/-- Changes a node's entry in the node table. -/
def State.modNode (k : NodeId) (f : Node → Node) (s : State) : State :=
  { s with clc := { s.clc with nodes := put s.clc.nodes k (f (s.node k)) } }

/-- Sets or clears a bay's ended-latch (R88). -/
def State.setEndedLatch (b : BayId) (v : Bool) (s : State) : State :=
  { s with ssm := { s.ssm with endedLatch := put s.ssm.endedLatch b v } }

/-- Sets or clears a bay's no-context mark (R82). -/
def State.setNoContextMark (b : BayId) (v : Bool) (s : State) : State :=
  { s with ssm := { s.ssm with noContextMark := put s.ssm.noContextMark b v } }

/-- A port's context. -/
def State.port (s : State) : Port → PortContext
  | .a => s.mpt.portA
  | .b => s.mpt.portB

/-- Changes a port's context. -/
def State.modPort (p : Port) (f : PortContext → PortContext) (s : State) : State :=
  match p with
  | .a => { s with mpt := { s.mpt with portA := f s.mpt.portA } }
  | .b => { s with mpt := { s.mpt with portB := f s.mpt.portB } }

/-- The working settings (R192). -/
def State.settings (s : State) : Settings := s.sst.working

/-- The port ceiling of a port (R182). -/
def Settings.ceiling (t : Settings) : Port → Nat
  | .a => t.ceilingA
  | .b => t.ceilingB

/-! ## The bay link's tables -/

/-- Whether masks hold at least one downstream and one upstream link slot. -/
def Masks.scheduled (m : Masks) : Bool := m.down != 0 && m.up != 0

/-- A bay's masks in the active copy. -/
def State.activeMasks (s : State) (b : BayId) : Masks := s.blc.active[b.val]

/-- Whether a bay is scheduled: at least one downstream and one upstream link slot in the active copy. -/
def State.scheduled (s : State) (b : BayId) : Bool := (s.activeMasks b).scheduled

/-- The bay that owns a downstream link slot in the active schedule. -/
def State.downOwner (s : State) (slot : Fin 16) : Option BayId :=
  allBays.find? fun b => (s.activeMasks b).down.getLsbD slot.val

/-- The bay that owns an upstream link slot in the active schedule. -/
def State.upOwner (s : State) (slot : Fin 32) : Option BayId :=
  allBays.find? fun b => (s.activeMasks b).up.getLsbD slot.val

/-- Whether a bay is reserved as the target of a transfer (R21). -/
def State.reserved (s : State) (b : BayId) : Bool := (s.bay b).reservedFor.isSome

/-- Whether the bay's session record id names a record in this state. -/
def State.liveIn (s : State) (b : BayId) (st : RecordState) : Bool :=
  match (s.bay b).session with
  | some r => (s.record r).state = st
  | none => false

/-! ## Messages to the ports -/

/-- A message is appended to a transmit queue. On an empty queue its sending begins at once, so it takes the DROPPED
flag when the drop mark is set, and the mark is cleared (R184). -/
def PortContext.append (m : Message) (c : PortContext) : PortContext :=
  match c.transmitQueue with
  | [] => { c with transmitQueue := [{ m with droppedFlag := c.dropMark }], dropMark := false }
  | q => { c with transmitQueue := q ++ [m] }

/-- A message is dropped: the dropped count rises by 1 and the drop mark is set (R184). -/
def PortContext.drop (c : PortContext) : PortContext :=
  { c with droppedCount := c.droppedCount + 1, dropMark := true }

/-- A notice handed over: dropped at 12 or more messages (R184). -/
def PortContext.handNotice (m : Message) (c : PortContext) : PortContext :=
  if c.transmitQueue.length < 12 then c.append m else c.drop

/-- The BUSY of a full receive queue handed over: dropped at 14 or more messages (R184). -/
def PortContext.handBusy (m : Message) (c : PortContext) : PortContext :=
  if c.transmitQueue.length < 14 then c.append m else c.drop

/-- The kind of a notice (R186). -/
def Notice.kind : Notice → Byte
  | .start _ _ => 0x40
  | .authRequest _ _ _ _ => 0x41
  | .session _ => 0x42
  | .bayNoContext _ => 0x43
  | .bayReserved _ _ => 0x43
  | .receipt _ _ => 0x44
  | .interval _ => 0x45
  | .alarm _ => 0x46

/-- The port a notice is routed to under the settings as they stand (R186). -/
def Notice.port (t : Settings) : Notice → Port
  | .authRequest _ _ _ _ => t.authorisationPort
  | .receipt _ _ => t.receiptPort
  | _ => .a

/-- A notice is handed to the Message Ports, with the time at which it is raised (R186). -/
def State.notify (n : Notice) (s : State) : State :=
  s.modPort (n.port s.settings) (·.handNotice ⟨0, 0, n.kind, false, .notice s.now n⟩)

/-- A reply to the oldest request of a port, formed from the context as it stands (R183). -/
def PortContext.replyMessage (c : PortContext) (q : Request) (code : ResultCode) (occupancy : Nat)
    (contents : Contents) : Message :=
  ⟨q.role, q.tag, q.kind, false, .reply ⟨code, occupancy, c.errorCount, c.droppedCount, contents⟩⟩

/-- The oldest request of a port is answered: its reply joins the transmit queue, the request leaves the receive queue,
and the next one, if any, has yet to be checked (R180, R183, R184). -/
def PortContext.answer (code : ResultCode) (contents : Contents) (c : PortContext) : PortContext :=
  match c.receiveQueue with
  | [] => c
  | q :: rest =>
    { c.append (c.replyMessage q code c.receiveQueue.length contents) with
      receiveQueue := rest, service := .unchecked }

/-- What an owning block makes of a request: a result code, the reply contents, and the state it leaves. -/
structure Answer where
  code : ResultCode
  contents : Contents
  state : State

/-- An answer that leaves the state as it is. -/
def Answer.same (code : ResultCode) (contents : Contents) (s : State) : Answer := ⟨code, contents, s⟩

/-- An answer that refuses, with the head alone. -/
def Answer.refuse (code : ResultCode) (s : State) : Answer := ⟨code, .nothing, s⟩

/-- The reply is handed to the port the request came from, after every notice the request raised (R184). -/
def Answer.send (p : Port) (a : Answer) : State := a.state.modPort p (·.answer a.code a.contents)

/-- The outcome of a command. -/
abbrev Result := Host.Outcome State Fault Refusal

/-- The effective level at which a request was handed to its owning block, when the oldest request of the port stands
there and spells this command (R180, R181). -/
def State.takenLevel (p : Port) (c : Instr) (s : State) : Option Nat :=
  match (s.port p).service, (s.port p).receiveQueue with
  | .handed level, q :: _ => if requestOf p q.kind q.body = some c then some level else none
  | _, _ => none

/-- An owning block takes the request in service on a port and answers it. A command that is not the request in service
there reaches no owning block and changes nothing (R180, R181; assumption 5). -/
def serve (p : Port) (c : Instr) (s : State) (block : Nat → Answer) : Result :=
  match s.takenLevel p c with
  | some level => .next ((block level).send p)
  | none => .next s

end Sys2Proof.Machine
end

