-- ==== Sys2Proof/Machine/Tariff.lean ====
section
/-! DEFINITION. The Tariff Store: the plan directory, the page pool, loading, publishing and clearing, use of a plan,
pins and prices (R117–R134). -/

namespace Sys2Proof.Machine

/-! ## Plans and pages -/

/-- Whether a plan is protected under the protected plans setting as it stands (R126). -/
def State.isProtected (s : State) (p : PlanId) : Bool := s.settings.protectedPlans.getLsbD p.val

/-- Whether a directory entry names a page. -/
def State.names (s : State) (pg : PageId) (p : PlanId) : Bool :=
  match s.plan p with
  | some e => e.page = pg
  | none => false

/-- The number of directory entries that name a page (R133). -/
def State.namedBy (s : State) (pg : PageId) : Nat := (allPlans.filter (s.names pg)).length

/-- The lowest-numbered FREE page (R120). -/
def State.freePage (s : State) : Option PageId := allPages.find? fun pg => (s.page pg).state = .free

/-- The number of slots marked in a page's written-slot mask (R121). -/
def Page.writtenCount (pg : Page) : Nat := (pg.written.toList.filter (·)).length

/-- The tariff slots in ascending order. -/
def tariffSlots : List (Fin 48) := List.ofFn id

/-- The lowest slot not yet written (R123). -/
def Page.lowestUnwritten (pg : Page) : Option (Fin 48) := tariffSlots.find? fun i => !pg.written[i.val]

/-- Writes the staging state. -/
def State.setStaging (st : Option Staging) (s : State) : State := { s with tfs := { s.tfs with staging := st } }

/-! ## Loading a page -/

/-- PAGE_OPEN at its block (R120). -/
def pageOpen (p : Port) (label : Label) (useLevel : Byte) (idleRate : Word16) (idleGrace capPresence : Byte)
    (idleCap : Word16) (s : State) : Answer :=
  match useLevelOperand useLevel, presenceOperand capPresence with
  | some level, some hasCap =>
    if 1000 < idleRate.toNat ∨ 240 < idleGrace.toNat then .refuse .badArg s
    else if s.tfs.staging.isSome then .refuse .busy s
    else
      match s.freePage with
      | none => .refuse .storeFull s
      | some pg =>
        let opened : Page :=
          { Page.cleared with
            state := .staging
            label := label
            useLevel := level
            idleRate := idleRate.toNat
            idleGrace := idleGrace.toNat
            idleCap := if hasCap then some idleCap.toNat else none }
        ⟨.ok, .page pg, (s.modPage pg fun _ => opened).setStaging (some ⟨pg, p⟩)⟩
  | _, _ => .refuse .badArg s

/-- PAGE_OPEN (R120). -/
def execPageOpen (p : Port) (label : Label) (useLevel : Byte) (idleRate : Word16) (idleGrace capPresence : Byte)
    (idleCap : Word16) (s : State) : Result :=
  serve p (.pageOpen p label useLevel idleRate idleGrace capPresence idleCap) s fun _ =>
    pageOpen p label useLevel idleRate idleGrace capPresence idleCap s

/-- Writes a run of triples into a page from a slot on, marking each slot written (R121). -/
def Page.writeRun : (first : Nat) → List Triple → Page → Page
  | _, [], pg => pg
  | first, t :: rest, pg =>
    match below 48 first with
    | some i => writeRun (first + 1) rest { pg with slots := put pg.slots i t, written := put pg.written i true }
    | none => pg

/-- PAGE_WRITE at its block (R121). -/
def pageWrite (p : Port) (first count : Byte) (entries : List Byte) (s : State) : Answer :=
  match s.tfs.staging with
  | none => .refuse .notActive s
  | some st =>
    if st.owner ≠ p then .refuse .busy s
    else if count = 0 ∨ 12 < count.toNat ∨ 47 < first.toNat ∨ 47 < first.toNat + count.toNat - 1 then
      .refuse .badArg s
    else
      match triplesOperand entries with
      | none => .refuse .badLength s
      | some triples =>
        if triples.length ≠ count.toNat then .refuse .badLength s
        else
          let written := s.modPage st.page (Page.writeRun first.toNat triples)
          ⟨.ok, .slotsWritten (written.page st.page).writtenCount, written⟩

/-- PAGE_WRITE (R121). -/
def execPageWrite (p : Port) (first count : Byte) (entries : List Byte) (s : State) : Result :=
  serve p (.pageWrite p first count entries) s fun _ => pageWrite p first count entries s

/-- PAGE_DISCARD at its block (R122). -/
def pageDiscard (s : State) : Answer :=
  match s.tfs.staging with
  | none => .refuse .notActive s
  | some st => ⟨.ok, .page st.page, (s.modPage st.page fun _ => Page.cleared).setStaging none⟩

/-- PAGE_DISCARD, from either port (R122). -/
def execPageDiscard (p : Port) (s : State) : Result := serve p (.pageDiscard p) s fun _ => pageDiscard s

/-! ## Publishing and clearing -/

/-- A page that has lost a directory reference is judged: it stays PUBLISHED while an entry names it, and otherwise
becomes RETIRED when it is pinned and FREE with its contents cleared when it is not (R124 step 3). -/
def State.judge (pg : PageId) (s : State) : State :=
  if 0 < s.namedBy pg then s
  else s.modPage pg fun g => if 0 < g.pins then { g with state := .retired } else Page.cleared

/-- The plans of a plan set, in ascending plan number. -/
def planSet (plans : Word16) : List PlanId := allPlans.filter fun p => plans.getLsbD p.val

/-- The pages the directory entries of a plan set name, each once, in ascending page index (R124). -/
def State.oldPages (s : State) (plans : Word16) : List PageId :=
  allPages.filter fun pg => (planSet plans).any (s.names pg)

/-- The steps of R124 for the staging page `pg`. -/
def State.publish (pg : PageId) (plans : Word16) (level : Nat) (s : State) : State :=
  let named := (planSet plans).foldl (fun t p => t.setPlan p (some ⟨pg, level⟩)) s
  let opened := (named.modPage pg fun g => { g with state := .published }).setStaging none
  (s.oldPages plans).foldl (fun t old => t.judge old) opened

/-- PAGE_PUBLISH at its block, at effective level `e` (R123, R124, R126). -/
def pagePublish (e : Nat) (p : Port) (plans : Word16) (useLevel : Byte) (s : State) : Answer :=
  match s.tfs.staging with
  | none => .refuse .notActive s
  | some st =>
    if st.owner ≠ p then .refuse .busy s
    else
      match useLevelOperand useLevel with
      | none => .refuse .badArg s
      | some level =>
        if plans = 0 then .refuse .badArg s
        else if (planSet plans).any s.isProtected ∧ 0 < e then .refuse .denied s
        else
          match (s.page st.page).lowestUnwritten with
          | some slot => ⟨.incomplete, .unwritten slot.val (s.page st.page).writtenCount, s⟩
          | none =>
            let done := s.publish st.page plans level
            ⟨.ok, .published st.page ((s.oldPages plans).map fun pg => (pg, (done.page pg).state)), done⟩

/-- PAGE_PUBLISH (R123, R124). -/
def execPagePublish (p : Port) (plans : Word16) (useLevel : Byte) (s : State) : Result :=
  serve p (.pagePublish p plans useLevel) s fun e => pagePublish e p plans useLevel s

/-- PLAN_CLEAR at its block, at effective level `e` (R125, R126). -/
def planClear (e : Nat) (plan : Byte) (s : State) : Answer :=
  match planOperand plan with
  | none => .refuse .badArg s
  | some pl =>
    if s.isProtected pl ∧ 0 < e then .refuse .denied s
    else
      match s.plan pl with
      | none => .refuse .notActive s
      | some entry =>
        let done := (s.setPlan pl none).judge entry.page
        ⟨.ok, .cleared entry.page (done.page entry.page).state, done⟩

/-- PLAN_CLEAR (R125). -/
def execPlanClear (p : Port) (plan : Byte) (s : State) : Result :=
  serve p (.planClear p plan) s fun e => planClear e plan s

/-! ## Use of a plan, pins and prices -/

/-- The Tariff Store's answer when the Session Manager asks whether a plan may be used (R127). -/
inductive PlanUse where
  | noPlan
  | denied
  | usable (page : PageId)
  deriving DecidableEq, Repr

/-- Whether a plan may be used at effective level `e` (R127). -/
def State.planUse (s : State) (e : Nat) (p : PlanId) : PlanUse :=
  match s.plan p with
  | none => .noPlan
  | some entry =>
    if entry.useLevel < e ∨ (s.page entry.page).useLevel < e then .denied else .usable entry.page

/-- One pin is added to a page (R129). -/
def State.addPin (pg : PageId) (s : State) : State := s.modPage pg fun g => { g with pins := g.pins + 1 }

/-- One pin of a page is released; a RETIRED page whose count reaches 0 becomes FREE, its contents cleared (R130). -/
def State.releasePin (pg : PageId) (s : State) : State :=
  s.modPage pg fun g =>
    if g.state = .retired ∧ g.pins ≤ 1 then Page.cleared else { g with pins := g.pins - 1 }

/-- The page a record has pinned; a record with no pin reads a cleared page. -/
def State.pinnedPage (s : State) (r : Record) : Page :=
  match r.page with
  | some pg => s.page pg
  | none => Page.cleared

/-- The price triple of a page at a time; slot 0 stands for an absent time, which no accounted record meets (R131). -/
def Page.priceAt (pg : Page) (t : Option SiteTime) : Triple :=
  match t with
  | some t => pg.slots[(t.tariffSlot).val]
  | none => pg.slots[0]

/-! ## Observing the store -/

/-- The plan figures of GET_PLAN (R133). -/
def State.planFigures (s : State) (p : PlanId) : PlanFigures where
  entry := s.plan p
  isProtected := s.isProtected p
  page := (s.plan p).map fun e =>
    let pg := s.page e.page
    ⟨pg.state, pg.label, pg.useLevel, pg.idleRate, pg.idleGrace, pg.idleCap, pg.pins, pg.slots⟩
  pool := Vector.ofFn fun pg : PageId => ⟨(s.page pg).state, (s.page pg).pins, (s.page pg).label, s.namedBy pg⟩
  staging := s.tfs.staging.map fun st => (st.page, st.owner, (s.page st.page).writtenCount)

/-- GET_PLAN at its block (R133). -/
def getPlan (plan : Byte) (s : State) : Answer :=
  match planOperand plan with
  | some p => .same .ok (.plan (s.planFigures p)) s
  | none => .refuse .badArg s

/-- GET_PLAN(plan) (R133). -/
def execGetPlan (p : Port) (plan : Byte) (s : State) : Result := serve p (.getPlan p plan) s fun _ => getPlan plan s

end Sys2Proof.Machine
end

