-- ==== Sys2Proof/Machine/Pricing.lean ====
section
/-! DEFINITION. Chains and what they cost: chain order (R101), attribution (R135), segments (R138), segment cost (R140),
idle fee (R141, R142), running cost estimate (R143) and the caps (R91, R144). -/

namespace Sys2Proof.Machine

/-! ## Chains -/

/-- The records reached from `r` by following at most `fuel` back-links, `r` first (R101). -/
def State.backLinks (s : State) : (fuel : Nat) → RecordId → List RecordId
  | 0, r => [r]
  | fuel + 1, r =>
    match (s.record r).backLink with
    | none => [r]
    | some earlier => r :: s.backLinks fuel earlier

/-- The members of the chain with this head in chain order, the root first (R101). With 32 records no chain needs more
than 31 back-links. -/
def State.chain (s : State) (head : RecordId) : List RecordId := (s.backLinks 31 head).reverse

/-- The root of the chain with this head (R101). -/
def State.root (s : State) (head : RecordId) : RecordId := (s.chain head).headD head

/-- The record that links back to `r`, if one does. -/
def State.successor (s : State) (r : RecordId) : Option RecordId :=
  allRecords.find? fun q => (s.record q).backLink = some r

/-- The head of the chain a record is a member of, found by going forward at most `fuel` times (R101). -/
def State.headFrom (s : State) : (fuel : Nat) → RecordId → RecordId
  | 0, r => r
  | fuel + 1, r =>
    match s.successor r with
    | none => r
    | some q => s.headFrom fuel q

/-- The head of the chain a record is a member of (R101). -/
def State.headOf (s : State) (r : RecordId) : RecordId := s.headFrom 31 r

/-- A chain's metered Wh: the sum over its members (R78). -/
def State.chainMetered (s : State) (head : RecordId) : Nat :=
  ((s.chain head).map fun r => (s.record r).metered).sum

/-- A chain's idle ms: the sum over its members (R78, R141). -/
def State.chainIdleMs (s : State) (head : RecordId) : Nat :=
  ((s.chain head).map fun r => (s.record r).idleMs).sum

/-! ## Segments and their cost -/

/-- A segment's mWh in all. -/
def Segment.total (g : Segment) : Nat := g.solar + g.battery + g.grid

/-- A delta's three amounts are added to a segment (R135). -/
def Segment.add (e : Nat) (shares : Shares) (g : Segment) : Segment :=
  { g with
    solar := g.solar + e * shares.solar
    battery := g.battery + e * shares.battery
    grid := g.grid + e * shares.grid }

/-- The segment a delta opens (R138). -/
def Segment.opened (e : Nat) (shares : Shares) (t : Triple) (now : Option SiteTime) : Segment :=
  ⟨t, now, e * shares.solar, e * shares.battery, e * shares.grid⟩

/-- A delta is added to the segment keyed by its triple, or a new segment is appended (R138). -/
def addDelta (e : Nat) (shares : Shares) (t : Triple) (now : Option SiteTime) : List Segment → List Segment
  | [] => [Segment.opened e shares t now]
  | g :: rest => if g.triple = t then g.add e shares :: rest else g :: addDelta e shares t now rest

/-- The cost of a segment in cents: N / 10^8 rounded half up (R140). -/
def Segment.cost (g : Segment) : Nat :=
  (g.solar * g.triple.solar + g.battery * g.triple.battery + g.grid * g.triple.grid + 50000000) / 100000000

/-- The cost of a record: the sum of its segments' rounded costs (R140). -/
def Record.cost (r : Record) : Nat := (r.segments.map Segment.cost).sum

/-! ## Idle fee, estimate and caps -/

/-- The idle fee for a chain's idle seconds under a page's idle schedule (R142). -/
def Page.idleFee (pg : Page) (seconds : Nat) : Nat :=
  let fee := pg.idleRate * ((seconds - 60 * pg.idleGrace) / 600)
  match pg.idleCap with
  | some cap => min fee cap
  | none => fee

/-- A chain's idle seconds (R141). -/
def State.idleSeconds (s : State) (head : RecordId) : Nat := s.chainIdleMs head / 1000

/-- The page pinned by a chain's root (R132). -/
def State.rootPage (s : State) (head : RecordId) : Page := s.pinnedPage (s.record (s.root head))

/-- A chain's idle fee (R142). -/
def State.idleFee (s : State) (head : RecordId) : Nat := (s.rootPage head).idleFee (s.idleSeconds head)

/-- A chain's running cost estimate (R143). -/
def State.estimate (s : State) (head : RecordId) : Nat :=
  ((s.chain head).map fun r => (s.record r).cost).sum + s.idleFee head

/-- Whether a chain has reached one of its head's caps (R91, R144). -/
def State.capReached (s : State) (head : RecordId) : Bool :=
  (match (s.record head).energyCap with
    | some cap => decide (cap ≤ s.chainMetered head)
    | none => false) ||
  (match (s.record head).costCap with
    | some cap => decide (cap ≤ s.estimate head)
    | none => false)

end Sys2Proof.Machine
end

