-- ==== Sys2Proof/Machine/Receipts.lean ====
section
/-! DEFINITION. The Receipt Queue: building and issuing receipts, the waiting-chain queue, acknowledgement, resending
and the number base (R114, R115, R148–R163). -/

namespace Sys2Proof.Machine

/-! ## Building a receipt -/

/-- The lines of one member of a chain (R152). -/
def memberLines (index : Nat) (r : Record) : List ReceiptLine :=
  r.segments.map fun g => ⟨index, g.firstUse, g.triple, g.solar, g.battery, g.grid, g.cost⟩

/-- The lines of a chain's members in chain order, the first of them at `index` (R152). -/
def State.chainLines (s : State) : (index : Nat) → List RecordId → List ReceiptLine
  | _, [] => []
  | index, r :: rest => memberLines index (s.record r) ++ s.chainLines (index + 1) rest

/-- The nil line of a chain that holds no segment (R152). -/
def State.nilLine (s : State) (head : RecordId) : ReceiptLine :=
  let root := s.record (s.root head)
  ⟨0, root.startTime, (s.pinnedPage root).priceAt root.startTime, 0, 0, 0, 0⟩

/-- The lines of a receipt (R152). -/
def State.receiptLines (s : State) (head : RecordId) : List ReceiptLine :=
  match s.chainLines 0 (s.chain head) with
  | [] => [s.nilLine head]
  | lines => lines

/-- The idle line of a receipt (R153). -/
def State.idleLine (s : State) (head : RecordId) : Option IdleLine :=
  if 0 < s.chainIdleMs head then some ⟨s.idleSeconds head / 60, s.idleFee head⟩ else none

/-- The receipt of a chain, with this number (R151–R153). -/
def State.buildReceipt (s : State) (number : Word32) (head : RecordId) : Receipt :=
  let h := s.record head
  let root := s.record (s.root head)
  let lines := s.receiptLines head
  let idle := s.idleLine head
  { number := number
    issueTime := s.now
    head := head
    startSeq := root.startSeq.getD 0
    token := h.token
    plan := h.plan.getD 0
    label := (s.pinnedPage root).label
    cls := h.cls
    firstBay := root.bay
    lastBay := h.bay
    startTime := root.startTime
    endTime := h.endTime
    endReason := h.endReason.getD .stopped
    records := h.depth
    lines := lines
    idleLine := idle
    totalMWh := (lines.map fun l => l.solar + l.battery + l.grid).sum
    totalCents := (lines.map fun l => l.cost).sum + (match idle with
      | some i => i.fee
      | none => 0) }

/-- The receipt number after one has been taken: 1 follows 2^32 − 1 (R149). -/
def nextNumberAfter (n : Word32) : Word32 := if n = 0xFFFFFFFF#32 then 1 else n + 1

/-- Every member of a chain goes to a state. -/
def State.setMembers (st : RecordState) (members : List RecordId) (s : State) : State :=
  members.foldl (fun t r => t.modRecord r fun g => { g with state := st }) s

/-- Whether the receipt queue has room (R150). -/
def State.receiptRoom (s : State) : Bool := s.rcq.entries.length < 8

/-- A closed chain is receipted: the steps of R150. -/
def State.issueReceipt (head : RecordId) (s : State) : State :=
  let receipt := s.buildReceipt s.rcq.nextNumber head
  let queued : State :=
    { s with rcq := ⟨s.rcq.entries ++ [receipt], nextNumberAfter s.rcq.nextNumber⟩ }
  (queued.setMembers .receipted (s.chain head)).notify (.receipt receipt false)

/-- Writes the waiting-chain queue. -/
def State.setWaiting (w : List RecordId) (s : State) : State := { s with ssm := { s.ssm with waiting := w } }

/-- A closed chain is offered to the Receipt Queue when no chain waits, and joins the tail of the waiting-chain queue
when one does or when there is no room (R114, R150). -/
def State.placeChain (head : RecordId) (s : State) : State :=
  if s.ssm.waiting = [] ∧ s.receiptRoom then s.issueReceipt head
  else s.setWaiting (s.ssm.waiting ++ [head])

/-! ## Acknowledgement -/

/-- A receipted chain is freed: member by member in chain order its pin is released and the record becomes FREE with
every field cleared (R115, R130). -/
def State.freeChain (members : List RecordId) (s : State) : State :=
  members.foldl
    (fun t r =>
      (match (t.record r).page with
        | some pg => t.releasePin pg
        | none => t).modRecord r fun _ => Record.cleared) s

/-- The waiting-chain queue is drained once: its oldest chain is offered to the Receipt Queue (R115, R156). -/
def State.drain (s : State) : State :=
  match s.ssm.waiting with
  | [] => s
  | head :: rest => if s.receiptRoom then (s.setWaiting rest).issueReceipt head else s

/-- The queue summary (R159). -/
def State.queueSummary (s : State) : QueueSummary :=
  ⟨s.rcq.entries.map fun r => (r.number, r.head), s.rcq.nextNumber, s.ssm.waiting.length⟩

/-- The entry of the receipt queue that holds a number. -/
def State.receiptHeld (s : State) (number : Word32) : Option Receipt :=
  s.rcq.entries.find? fun r => r.number = number

/-- The receipt queue without the first entry that holds a number. -/
def withoutReceipt (number : Word32) (entries : List Receipt) : List Receipt :=
  entries.eraseP fun r => r.number = number

/-- RECEIPT_ACK at its block (R155). -/
def receiptAck (number : Word32) (s : State) : Answer :=
  match s.receiptHeld number with
  | none => .same .unknown (.queue s.queueSummary) s
  | some r =>
    let removed : State := { s with rcq := { s.rcq with entries := withoutReceipt number s.rcq.entries } }
    let freed := removed.freeChain (removed.chain r.head)
    let issued := if freed.ssm.waiting ≠ [] ∧ freed.receiptRoom then some freed.rcq.nextNumber else none
    ⟨.ok, .acknowledged number issued, freed.drain⟩

/-- RECEIPT_ACK(number) (R155). -/
def execReceiptAck (p : Port) (number : Word32) (s : State) : Result :=
  serve p (.receiptAck p number) s fun _ => receiptAck number s

/-- RECEIPT_GET at its block (R158). -/
def receiptGet (number : Word32) (s : State) : Answer :=
  if number = 0 then .same .ok (.queue s.queueSummary) s
  else
    match s.receiptHeld number with
    | none => .same .unknown (.queue s.queueSummary) s
    | some r => ⟨.ok, .queue s.queueSummary, s.notify (.receipt r true)⟩

/-- RECEIPT_GET(number) (R158). -/
def execReceiptGet (p : Port) (number : Word32) (s : State) : Result :=
  serve p (.receiptGet p number) s fun _ => receiptGet number s

/-- SET_RECEIPT_BASE at its block (R160). The rule states no order of its two refusals: 0 gives BAD_ARG also while a
queue holds an entry (DESIGN CHOICE, assumption 27). -/
def setReceiptBase (number : Word32) (s : State) : Answer :=
  if number = 0 then .refuse .badArg s
  else if s.rcq.entries ≠ [] ∨ s.ssm.waiting ≠ [] then .same .busy (.queue s.queueSummary) s
  else ⟨.ok, .nothing, { s with rcq := { s.rcq with nextNumber := number } }⟩

/-- SET_RECEIPT_BASE(number) (R160). -/
def execSetReceiptBase (p : Port) (number : Word32) (s : State) : Result :=
  serve p (.setReceiptBase p number) s fun _ => setReceiptBase number s

end Sys2Proof.Machine
end

