-- ==== Sys2Proof/Machine/Sessions.lean ====
section
/-! DEFINITION. The Session Manager: taking and ending records, closing a chain, authorisation, stopping, changing
class, the deadlines of a record and GET_SESSION (R77–R88, R94–R100, R116, R146). -/

namespace Sys2Proof.Machine

/-! ## Taking a record -/

/-- The first FREE record at or after the allocation pointer, counting upwards and wrapping from 31 to 0 (R77). -/
def State.freeRecord (s : State) : Option RecordId :=
  (allRecords.map fun k => s.ssm.allocPointer + k).find? fun r => (s.record r).state = .free

/-- A record is taken and filled with the values its operation gives; the allocation pointer goes to the record after
it, wrapping from 31 to 0 (R77). -/
def State.takeRecord (r : RecordId) (g : Record) (s : State) : State :=
  let filled := s.modRecord r fun _ => g
  { filled with ssm := { filled.ssm with allocPointer := r + 1 } }

/-- A record is freed, with every field cleared (R85–R87, R100). -/
def State.freeRecordOf (r : RecordId) (s : State) : State := s.modRecord r fun _ => Record.cleared

/-- Writes a bay's session record id (R77). -/
def State.setSession (b : BayId) (r : Option RecordId) (s : State) : State := s.modBay b fun e => { e with session := r }

/-- Whether a record's state makes it the live record of its bay (R77). -/
def RecordState.isLive : RecordState → Bool
  | .pending => true
  | .active => true
  | .suspended => true
  | .transferring => true
  | .free => false
  | .linked => false
  | .closed => false
  | .receipted => false

/-- Whether a record is the head of a live chain past authorisation: ACTIVE, SUSPENDED or TRANSFERRING (R97, R98). -/
def RecordState.isRunning : RecordState → Bool
  | .active => true
  | .suspended => true
  | .transferring => true
  | .pending => false
  | .free => false
  | .linked => false
  | .closed => false
  | .receipted => false

/-- Whether a vehicle state asks for a session: PLUGGED or DEMANDING (R81). -/
def VehicleState.asks (v : VehicleState) : Bool := v = .plugged || v = .demanding

/-- Whether a vehicle is still plugged on a bay by its last STATUS in the bay table (R80). -/
def State.stillPlugged (s : State) (b : BayId) : Bool := (s.bay b).lastStatus.vehicle.isPlugged

/-- One pin is added to the page a record has pinned (R129). -/
def State.addPinOf (pg : Option PageId) (s : State) : State :=
  match pg with
  | some pg => s.addPin pg
  | none => s

/-! ## Closing a chain -/

/-- The reservation of a TRANSFERRING head is released: the target bay's reserved-for id and foreign-vehicle mark are
cleared, and the head's transfer deadline and target become absent (R110). -/
def State.releaseReservation (head : RecordId) (s : State) : State :=
  (match (s.record head).transferTarget with
    | some t => s.modBay t fun e => { e with reservedFor := none, foreignMark := false }
    | none => s).modRecord head fun g => { g with transferDeadline := none, transferTarget := none }

/-- The steps of R80, the reservation of a TRANSFERRING head released before them (R110); `latch` says whether step 3
sets the ended-latch of the head's bay. -/
def State.endChain (head : RecordId) (reason : EndReason) (latch : Bool) (s : State) : State :=
  let released := if (s.record head).state = .transferring then s.releaseReservation head else s
  let b := (s.record head).bay
  let ended := released.modRecord head fun g =>
    { g with endTime := s.now, endReason := some reason, resumeDeadline := none, suspension := none }
  let cleared := ended.setSession b none
  let latched := if latch then cleared.setEndedLatch b true else cleared
  let told := latched.notify
    (.session (.closed head b reason (latched.chainMetered head) (latched.record head).depth))
  (told.setMembers .closed (told.chain head)).placeChain head

/-- A chain closes: its bay's ended-latch is set when the reason is STOPPED or when the vehicle is still plugged (R80). -/
def State.closeChain (head : RecordId) (reason : EndReason) (plugged : Bool) (s : State) : State :=
  s.endChain head reason (reason = .stopped || plugged)

/-- A chain closes for a cause that is no STATUS event of its bay: the vehicle is judged by the bay's last STATUS in
the bay table (R80). -/
def State.closeByTable (head : RecordId) (reason : EndReason) (s : State) : State :=
  s.closeChain head reason (s.stillPlugged (s.record head).bay)

/-- The caps are checked: a chain that has reached one closes with reason CAP_REACHED (R91, R144). -/
def State.checkCaps (head : RecordId) (plugged : Bool) (s : State) : State :=
  if s.capReached head then s.closeChain head .capReached plugged else s

/-! ## Opening a root -/

/-- The start sequence number after one has been assigned: 1 follows 2^32 − 1 (R78). -/
def nextStart (n : Word32) : Word32 := if n = 0xFFFFFFFF#32 then 1 else n + 1

/-- A root opens in a record: it takes the next start sequence number and the present time, its page takes a pin, it
becomes its bay's live record and STARTED is handed over (R83, R84, R112, R129). -/
def State.openRoot (r : RecordId) (g : Record) (s : State) : State :=
  let seq := nextStart s.ssm.startCounter
  let counted : State := { s with ssm := { s.ssm with startCounter := seq } }
  let filled := counted.modRecord r fun _ => { g with startSeq := some seq, startTime := s.now }
  ((filled.addPinOf g.page).setSession g.bay (some r)).notify (.session (.started r g.bay g.plan g.cls seq))

/-- The record of a root that enters ACTIVE by AUTHORIZE or till voucher (R83). -/
def State.rootRecord (s : State) (o : SessionOperands) (token : Option Token) (pg : PageId) : Record :=
  { Record.cleared with
    state := .active
    bay := o.bay
    token := token
    plan := some o.plan
    page := some pg
    cls := o.cls
    depth := 1
    meterLast := (s.bay o.bay).lastCounter
    energyCap := o.energyCap
    costCap := o.costCap
    charge := .waiting }

/-! ## Authorisation -/

/-- AUTHORIZE with a request id other than 0 at its block, at effective level `e` (R83). -/
def authorize (e : Nat) (bay requestId plan cls capPresence : Byte) (energyCap costCap : Word32) (s : State) :
    Answer :=
  match sessionOperands bay plan cls capPresence energyCap costCap, requestIdOperand requestId with
  | some o, some r =>
    if (s.record r).state ≠ .pending ∨ (s.record r).bay ≠ o.bay then .refuse .tooLate s
    else
      match s.planUse e o.plan with
      | .noPlan => .refuse .noPlan s
      | .denied => .refuse .denied s
      | .usable pg =>
        ⟨.ok, .authorised r (nextStart s.ssm.startCounter), s.openRoot r (s.rootRecord o (s.record r).token pg)⟩
  | _, _ => .refuse .badArg s

/-- AUTHORIZE with a request id of 1–32 (R83). -/
def execAuthorize (p : Port) (bay requestId plan cls capPresence : Byte) (energyCap costCap : Word32) (s : State) :
    Result :=
  serve p (.authorize p bay requestId plan cls capPresence energyCap costCap) s fun e =>
    authorize e bay requestId plan cls capPresence energyCap costCap s

/-- A till voucher at its block, at effective level `e` (R84). -/
def tillVoucher (e : Nat) (bay plan cls capPresence : Byte) (energyCap costCap : Word32) (s : State) : Answer :=
  match sessionOperands bay plan cls capPresence energyCap costCap with
  | none => .refuse .badArg s
  | some o =>
    let entry := s.bay o.bay
    if s.now.isNone then .refuse .clockUnset s
    else if entry.link ≠ .online ∨ !entry.lastStatus.vehicle.asks then .refuse .noVehicle s
    else if entry.session.isSome ∨ s.reserved o.bay then .refuse .busy s
    else
      match s.planUse e o.plan with
      | .noPlan => .refuse .noPlan s
      | .denied => .refuse .denied s
      | .usable pg =>
        match s.freeRecord with
        | none => .refuse .noContext s
        | some r =>
          let opened := (s.takeRecord r Record.cleared).openRoot r (s.rootRecord o entry.lastStatus.token pg)
          ⟨.ok, .authorised r (nextStart s.ssm.startCounter),
            (opened.setEndedLatch o.bay false).setNoContextMark o.bay false⟩

/-- AUTHORIZE with request id 0, a till voucher (R84). -/
def execTillVoucher (p : Port) (bay plan cls capPresence : Byte) (energyCap costCap : Word32) (s : State) : Result :=
  serve p (.tillVoucher p bay plan cls capPresence energyCap costCap) s fun e =>
    tillVoucher e bay plan cls capPresence energyCap costCap s

/-- DENY at its block (R85). -/
def deny (bay requestId : Byte) (s : State) : Answer :=
  match bayOperand bay, requestIdOperand requestId with
  | some b, some r =>
    if (s.record r).state ≠ .pending ∨ (s.record r).bay ≠ b then .refuse .tooLate s
    else ⟨.ok, .nothing, ((s.freeRecordOf r).setSession b none).setEndedLatch b true⟩
  | _, _ => .refuse .badArg s

/-- DENY(bay, request id) (R85). -/
def execDeny (p : Port) (bay requestId : Byte) (s : State) : Result :=
  serve p (.deny p bay requestId) s fun _ => deny bay requestId s

/-- The expiry of a PENDING record's authorisation deadline (R86). With no such expiry nothing happens. -/
def execAuthTimeout (r : RecordId) (s : State) : Result :=
  let g := s.record r
  if g.state = .pending ∧ s.expired g.authDeadline then
    .next ((((s.freeRecordOf r).setSession g.bay none).setEndedLatch g.bay true).notify
      (.session (.authTimeout r g.bay)))
  else .next s

/-- A PENDING record is withdrawn (R87). -/
def State.withdraw (r : RecordId) (cause : WithdrawCause) (s : State) : State :=
  let b := (s.record r).bay
  ((s.freeRecordOf r).setSession b none).notify (.session (.withdrawn r b cause))

/-! ## Suspension -/

/-- A head goes to SUSPENDED on its own bay, with a resume deadline of the present time plus the resume window, and
SUSPENDED is handed over (R94, R109). -/
def State.suspend (r : RecordId) (reason : SuspensionReason) (s : State) : State :=
  (s.modRecord r fun g =>
    { g with
      state := .suspended
      suspension := some reason
      resumeDeadline := s.deadline (1000 * s.settings.resumeWindow)
      charge := .waiting }).notify (.session (.suspended r (s.record r).bay reason))

/-- A SUSPENDED record returns to ACTIVE (R95). -/
def State.resume (r : RecordId) (s : State) : State :=
  (s.modRecord r fun g => { g with state := .active, resumeDeadline := none, suspension := none }).notify
    (.session (.resumed r (s.record r).bay))

/-- The expiry of a SUSPENDED record's resume deadline (R96). With no such expiry nothing happens. -/
def execResumeDeadlineExpiry (r : RecordId) (s : State) : Result :=
  if (s.record r).state = .suspended ∧ s.expired (s.record r).resumeDeadline then
    .next (s.closeByTable r .linkLost)
  else .next s

/-! ## Stopping and changing class -/

/-- STOP_SESSION at its block (R97). -/
def stopSession (record : Byte) (s : State) : Answer :=
  match recordOperand record with
  | none => .refuse .badArg s
  | some r =>
    if (s.record r).state.isRunning then ⟨.ok, .nothing, s.closeByTable r .stopped⟩ else .refuse .notActive s

/-- STOP_SESSION(record) (R97). -/
def execStopSession (p : Port) (record : Byte) (s : State) : Result :=
  serve p (.stopSession p record) s fun _ => stopSession record s

/-- SET_CLASS at its block (R98). The rule states no order of its two refusals: a class above 2 gives BAD_ARG also for a
record that is not running (DESIGN CHOICE, assumption 27). -/
def setClass (record cls : Byte) (s : State) : Answer :=
  match recordOperand record, classOperand cls with
  | some r, some c =>
    if (s.record r).state.isRunning then ⟨.ok, .nothing, s.modRecord r fun g => { g with cls := c }⟩
    else .refuse .notActive s
  | _, _ => .refuse .badArg s

/-- SET_CLASS(record, class) (R98). -/
def execSetClass (p : Port) (record cls : Byte) (s : State) : Result :=
  serve p (.setClass p record cls) s fun _ => setClass record cls s

/-! ## Observing sessions -/

/-- The place of a chain in the waiting-chain queue, the first entry at `place` (R116). -/
def placeFrom (head : RecordId) : (place : Nat) → List RecordId → Option Nat
  | _, [] => none
  | place, r :: rest => if r = head then some place else placeFrom head (place + 1) rest

/-- The figures of the chain a record is a member of (R99, R116, R146). -/
def State.chainFigures (s : State) (r : RecordId) : ChainFigures :=
  let head := s.headOf r
  { head := head
    root := s.root head
    depth := (s.record head).depth
    metered := s.chainMetered head
    idleMs := s.chainIdleMs head
    idleSeconds := s.idleSeconds head
    idleFee := s.idleFee head
    estimate := s.estimate head
    waitingPlace := if (s.record r).state = .closed then placeFrom head 1 s.ssm.waiting else none }

/-- GET_SESSION at its block (R99, R116, R146). -/
def getSession (record : Byte) (s : State) : Answer :=
  match recordOperand record with
  | none => .refuse .badArg s
  | some r =>
    let g := s.record r
    .same .ok (.session (if g.state = .free then .freeRecord
      else .record g (g.segments.map Segment.cost) (s.chainFigures r))) s

/-- GET_SESSION(record) (R99). -/
def execGetSession (p : Port) (record : Byte) (s : State) : Result :=
  serve p (.getSession p record) s fun _ => getSession record s

end Sys2Proof.Machine
end

