-- ==== Sys2Proof/Machine/Chains.lean ====
section
/-! DEFINITION. Session chains: transfer, arrival on the reserved bay, cancel and timeout, and the opening of a
continuation (R101–R111). -/

namespace Sys2Proof.Machine

/-! ## Transfer -/

/-- The steps of R103. -/
def State.beginTransfer (r : RecordId) (t : BayId) (s : State) : State :=
  let deadline := s.deadline (1000 * s.settings.transferTimeout)
  ((s.modRecord r fun g =>
    { g with
      state := .transferring
      transferTarget := some t
      transferDeadline := deadline
      resumeDeadline := none
      suspension := none
      charge := .waiting }).modBay t fun e => { e with reservedFor := some r, foreignMark := false }).notify
    (.session (.transferring r (s.record r).bay t deadline))

/-- TRANSFER at its block (R102, R103). -/
def transfer (record target : Byte) (s : State) : Answer :=
  match recordOperand record, bayOperand target with
  | some r, some t =>
    let g := s.record r
    if g.state ≠ .active ∧ g.state ≠ .suspended then .refuse .notActive s
    else if 4 ≤ g.depth then .refuse .chainFull s
    else if !s.settings.enabled[t.val] then .refuse .badArg s
    else if (s.bay t).session.isSome ∨ s.reserved t then .refuse .busy s
    else ⟨.ok, .deadline (s.deadline (1000 * s.settings.transferTimeout)), s.beginTransfer r t⟩
  | _, _ => .refuse .badArg s

/-- TRANSFER(record, target bay) (R102, R103). -/
def execTransfer (p : Port) (record target : Byte) (s : State) : Result :=
  serve p (.transfer p record target) s fun _ => transfer record target s

/-- The suspension reason a cancel takes from the head's bay as the bay table stands (R109). -/
def State.cancelReason (s : State) (b : BayId) : SuspensionReason :=
  if (s.bay b).link = .absent then .unscheduled
  else if (s.bay b).link = .online ∧ (s.bay b).lastStatus.vehicle = .fault then .fault
  else .silent

/-- CANCEL_TRANSFER at its block (R109). -/
def cancelTransfer (record : Byte) (s : State) : Answer :=
  match recordOperand record with
  | none => .refuse .badArg s
  | some r =>
    if (s.record r).state = .transferring then
      ⟨.ok, .nothing, (s.releaseReservation r).suspend r (s.cancelReason (s.record r).bay)⟩
    else .refuse .notActive s

/-- CANCEL_TRANSFER(record) (R109). -/
def execCancelTransfer (p : Port) (record : Byte) (s : State) : Result :=
  serve p (.cancelTransfer p record) s fun _ => cancelTransfer record s

/-- The expiry of a TRANSFERRING head's transfer deadline (R108). With no such expiry nothing happens. -/
def execTransferTimeout (r : RecordId) (s : State) : Result :=
  if (s.record r).state = .transferring ∧ s.expired (s.record r).transferDeadline then
    .next (s.closeByTable r .transferTimeout)
  else .next s

/-! ## Continuations -/

/-- The record of a continuation of the chain whose old head is `old`, on a bay (R106). -/
def State.continuation (s : State) (old : RecordId) (b : BayId) (counter : Option Word32) : Record :=
  let h := s.record old
  { Record.cleared with
    state := .active
    bay := b
    token := h.token
    plan := h.plan
    page := h.page
    cls := h.cls
    backLink := some old
    depth := h.depth + 1
    startSeq := h.startSeq
    startTime := s.now
    meterLast := counter
    energyCap := h.energyCap
    costCap := h.costCap
    charge := .waiting }

/-- A continuation opens in a record: its page takes a pin and the old head goes to LINKED, its deadlines, target and
suspension reason absent (R106, R111, R129). -/
def State.link (old new : RecordId) (g : Record) (s : State) : State :=
  ((s.takeRecord new g).addPinOf g.page).modRecord old fun h =>
    { h with
      state := .linked
      transferDeadline := none
      transferTarget := none
      resumeDeadline := none
      suspension := none }

/-- An arrival completes the transfer (R106). -/
def State.arrive (old new : RecordId) (b : BayId) (s : State) : State :=
  let g := s.continuation old b (s.bay b).lastCounter
  let linked := (s.link old new g).setSession (s.record old).bay none
  let placed := linked.modBay b fun e => { e with reservedFor := none, session := some new, foreignMark := false }
  ((placed.setEndedLatch b false).setNoContextMark b false).notify
    (.session (.continued old new b g.depth .transfer))

/-- A report that matches the chain a bay is reserved for: arrival (R106, R107). -/
def State.arrival (head : RecordId) (b : BayId) (s : State) : State :=
  match s.freeRecord with
  | some new => s.arrive head new b
  | none => (s.closeByTable head .noContext).setEndedLatch b true

/-- Whether a report on a reserved bay matches the chain the bay is reserved for (R105). -/
def State.matchesChain (s : State) (head : RecordId) (report : Report) : Bool :=
  report.vehicle.asks &&
    (report.token = (s.record head).token || (s.settings.tokenFreeTransfer && report.token.isNone))

/-- A STATUS event on a reserved bay (R105). -/
def State.reservedReport (head : RecordId) (b : BayId) (report : Report) (s : State) : State :=
  if s.matchesChain head report then s.arrival head b
  else if report.vehicle.asks ∧ !(s.bay b).foreignMark then
    (s.modBay b fun e => { e with foreignMark := true }).notify (.bayReserved b head)
  else s

end Sys2Proof.Machine
end

