-- ==== Sys2Proof/Machine/Accounting.lean ====
section
/-! DEFINITION. Accounting a METER event: shares, price triple, segments, rollover, SPLIT_LIMIT and the caps (R89–R92,
R111–R113, R135–R139). -/

namespace Sys2Proof.Machine

/-- The shares applied to a delta of a class, from the ALE's current grant set (R90). -/
def State.sharesFor (s : State) (cls : Fin 3) : Shares :=
  match s.ale.current with
  | none => ⟨0, 0, 1000⟩
  | some g => if cls.val = 2 then g.shares2 else g.shares01

/-- The price triple of a record's pinned page at the tariff slot of the present time (R89, R131). -/
def State.tripleFor (s : State) (r : RecordId) : Triple := (s.pinnedPage (s.record r)).priceAt s.now

/-- Whether a record can take a delta at a triple: its list holds the triple or fewer than 8 segments, and its metered
Wh stay within 32 bits (R89, R139). -/
def Record.takes (e : Nat) (t : Triple) (g : Record) : Bool :=
  (g.segments.any (fun q => q.triple = t) || decide (g.segments.length < 8)) &&
    decide (g.metered + e ≤ 4294967295)

/-- Step 4 of R89. -/
def State.account (r : RecordId) (e : Nat) (s : State) : State :=
  let t := s.tripleFor r
  let shares := s.sharesFor (s.record r).cls
  s.modRecord r fun g => { g with metered := g.metered + e, segments := addDelta e shares t s.now g.segments }

/-- Steps 4 and 5 of R89: the delta is accounted to a record and the caps of its chain are checked. -/
def State.accountAndCheck (r : RecordId) (e : Nat) (s : State) : State :=
  let accounted := s.account r e
  accounted.checkCaps r (accounted.stillPlugged (s.record r).bay)

/-- A delta is added to a bay's unbilled Wh, which wraps at 2^32 (R17). -/
def State.addUnbilled (b : BayId) (e : Nat) (s : State) : State :=
  s.modBay b fun q => { q with unbilledWh := q.unbilledWh + BitVec.ofNat 32 e }

/-- Rollover in a head of depth below 4 with a FREE record (R111). CONTINUED is handed over at the end, as the rule
lists it (DEDUCED, assumption 12). -/
def State.rollover (old new : RecordId) (e : Nat) (counter : Word32) (s : State) : State :=
  let h := s.record old
  let g : Record :=
    { s.continuation old h.bay (some counter) with
      state := h.state
      suspension := h.suspension
      resumeDeadline := h.resumeDeadline
      charge := h.charge }
  (((s.link old new g).setSession h.bay (some new)).accountAndCheck new e).notify
    (.session (.continued old new h.bay g.depth .rollover))

/-- The fresh root that follows SPLIT_LIMIT, before its start sequence number and time (R112). -/
def State.freshRoot (s : State) (old : RecordId) (pg : PageId) (counter : Word32) : Record :=
  let h := s.record old
  { Record.cleared with
    state := h.state
    bay := h.bay
    token := h.token
    plan := h.plan
    page := some pg
    cls := h.cls
    depth := 1
    meterLast := some counter
    energyCap := h.energyCap.map (· - s.chainMetered old)
    costCap := h.costCap.map (· - s.estimate old)
    charge := .waiting
    suspension := h.suspension
    resumeDeadline := h.resumeDeadline }

/-- SPLIT_LIMIT: the chain of a head of depth 4 closes and a fresh root is tried on the same bay (R112). -/
def State.splitLimit (old : RecordId) (e : Nat) (counter : Word32) (s : State) : State :=
  let h := s.record old
  let closed := s.endChain old .splitLimit false
  match h.plan.bind closed.plan, closed.freeRecord with
  | some entry, some new =>
    let opened := (closed.takeRecord new Record.cleared).openRoot new (s.freshRoot old entry.page counter)
    opened.accountAndCheck new e
  | _, _ => (closed.setEndedLatch h.bay true).addUnbilled h.bay e

/-- A delta that needs a ninth triple (R111–R113). With no FREE record a head of depth below 4 closes with NO_CONTEXT
and its bay's ended-latch is set (DEDUCED, assumption 13). -/
def State.ninthTriple (r : RecordId) (e : Nat) (counter : Word32) (s : State) : State :=
  let h := s.record r
  if h.depth < 4 then
    match s.freeRecord with
    | some new => s.rollover r new e counter
    | none => (s.closeChain r .noContext true).addUnbilled h.bay e
  else s.splitLimit r e counter

/-- A METER event for the live record `r`, ACTIVE or SUSPENDED (R89). -/
def State.meterEvent (r : RecordId) (e : Nat) (counter : Word32) (s : State) : State :=
  let read := s.modRecord r fun g => { g with meterLast := some counter }
  if e = 0 then read
  else if (read.record r).takes e (read.tripleFor r) then read.accountAndCheck r e
  else read.ninthTriple r e counter

/-! ## Idle time -/

/-- The idle time a STATUS event adds to a record; `none` when R92 adds nothing. -/
def State.idleToAdd (s : State) (g : Record) (previous : Report) (previousTime : Option SiteTime) : Option Nat :=
  if previous.vehicle = .plugged ∧ 1 ≤ g.metered then
    match previousTime, s.now with
    | some before, some now => some (now.minus before).toNat
    | _, _ => none
  else none

/-- Step 1 of R79: idle time is added to an ACTIVE record, its idle ms stopping at 2^32 − 1, and the caps of its chain
are checked (R91, R92, R144). -/
def State.idleStep (b : BayId) (report previous : Report) (previousTime : Option SiteTime) (s : State) : State :=
  match (s.bay b).session with
  | none => s
  | some r =>
    if (s.record r).state = .active then
      match s.idleToAdd (s.record r) previous previousTime with
      | some ms =>
        (s.modRecord r fun g => { g with idleMs := min 4294967295 (g.idleMs + ms) }).checkCaps r
          report.vehicle.isPlugged
      | none => s
    else s

end Sys2Proof.Machine
end

