-- ==== Sys2Proof/Machine/Admission.lean ====
section
/-! DEFINITION. Admission, level fill and the shed stack: eligibility, groups, the walks, the fill with its remainder
pass, and the stack update (R57–R72). -/

namespace Sys2Proof.Machine

/-! ## Eligibility -/

/-- An eligible bay with the figures the ALE takes for it (R57). -/
structure Eligible where
  bay : BayId
  cls : Fin 3
  seq : Word32
  req : Nat
  weight : Nat
  deriving DecidableEq, Repr

/-- A bay's floor, 60 dA at its weight (R57). -/
def Eligible.floor (x : Eligible) : Nat := 60 * x.weight

/-- A bay's full demand (R57). -/
def Eligible.demand (x : Eligible) : Nat := x.req * x.weight

/-- A bay judged at an allocation (R57). -/
def State.eligible (s : State) (b : BayId) : Option Eligible :=
  match (s.bay b).session with
  | none => none
  | some r =>
    if (s.bay b).link = .online ∧ s.scheduled b ∧ (s.record r).state = .active ∧
        (s.bay b).lastStatus.vehicle = .demanding then
      some ⟨b, (s.record r).cls, (s.record r).startSeq.getD 0,
        min (s.bay b).lastStatus.heldRequest s.settings.cableRating[b.val], 23 * s.settings.phases[b.val]⟩
    else none

/-- The eligible bays in ascending bay number (R57). -/
def State.eligibles (s : State) : List Eligible := allBays.filterMap s.eligible

/-- The sum of the full demands of a run of bays. -/
def demandOf (l : List Eligible) : Nat := (l.map Eligible.demand).sum

/-- D01: the demand of the eligible bays of classes 0 and 1 (R47). -/
def State.demand01 (s : State) : Nat := demandOf (s.eligibles.filter fun x => x.cls ≠ 2)

/-! ## Groups -/

/-- The groups of candidates (R58). -/
inductive Group where
  | running
  | due
  | others
  deriving DecidableEq, Repr

/-- An eligible bay that is walked, with its group. -/
structure Candidate where
  x : Eligible
  group : Group
  deriving DecidableEq, Repr

/-- A bay's entry on the shed stack or in the unlisted set. -/
def State.shedEntry (s : State) (b : BayId) : Option ShedEntry :=
  (s.ale.shedStack ++ s.ale.unlisted).find? fun e => e.bay = b

/-- Whether a bay's recorded session start number is present and is that of another session (R58). -/
def State.staleEntry (s : State) (x : Eligible) : Bool :=
  match (s.bay x.bay).recordedStart with
  | some q => q ≠ x.seq
  | none => false

/-- A bay's grant in the current grant set, 0 when none exists. -/
def State.currentGrant (s : State) (b : BayId) : Nat :=
  match s.ale.current with
  | some g => g.grants[b.val]
  | none => 0

/-- The group of an eligible bay at the allocation with this sequence number; `none` is not a candidate (R58). R95 says
that a resumed record enters its next allocation in group (c), and R106 says it of a bay that a transfer reaches. A bay
whose session was suspended and resumed, or moved away and back, with no allocation between is judged by these tests,
which may place it in group (a) or leave its shed entry (DESIGN CHOICE, assumption 26). -/
def State.groupOf (s : State) (sequence : Word32) (x : Eligible) : Option Group :=
  if s.staleEntry x then some .others
  else
    match s.shedEntry x.bay with
    | some e => if s.settings.shedHold ≤ (sequence - e.since).toNat then some .due else none
    | none => if 0 < s.currentGrant x.bay then some .running else some .others

/-- The candidates in ascending bay number. -/
def State.candidates (s : State) (sequence : Word32) : List Candidate :=
  s.eligibles.filterMap fun x => (s.groupOf sequence x).map fun g => ⟨x, g⟩

/-! ## Admission order -/

/-- A candidate put in its place by start sequence number, lowest first (R59). -/
def insertBySeq (c : Candidate) : List Candidate → List Candidate
  | [] => [c]
  | d :: rest => if c.x.seq.toNat ≤ d.x.seq.toNat then c :: d :: rest else d :: insertBySeq c rest

/-- Candidates ordered by start sequence number, lowest first (R59). -/
def sortBySeq (l : List Candidate) : List Candidate := l.foldr insertBySeq []

/-- The candidates of a class and group. -/
def ofGroup (cls : Fin 3) (group : Group) (l : List Candidate) : List Candidate :=
  l.filter fun c => c.x.cls = cls ∧ c.group = group

/-- The due candidates of a class: those on the stack from the top down, then the unlisted by bay number (R59). -/
def State.dueOrder (s : State) (cls : Fin 3) (l : List Candidate) : List Candidate :=
  (s.ale.shedStack ++ s.ale.unlisted).filterMap fun e =>
    (ofGroup cls .due l).find? fun c => c.x.bay = e.bay

/-- The admission order of one class (R59). -/
def State.classOrder (s : State) (l : List Candidate) (cls : Fin 3) : List Candidate :=
  sortBySeq (ofGroup cls .running l) ++ s.dueOrder cls l ++ sortBySeq (ofGroup cls .others l)

/-! ## First-fit admission -/

/-- The outcome of a walk: the candidates admitted and those shed, each in admission order (R60). -/
structure Walk where
  admitted : List Candidate
  shed : List Candidate
  deriving DecidableEq, Repr

/-- What a candidate's test asks for above the floor sum (R60, R61). -/
def Candidate.asks (margin : Nat) (c : Candidate) : Nat :=
  match c.group with
  | .due => c.x.floor + margin
  | .running => c.x.floor
  | .others => c.x.floor

/-- A walk from a running floor sum on (R60). -/
def walk (pool margin : Nat) : (floorSum : Nat) → List Candidate → Walk
  | _, [] => ⟨[], []⟩
  | f, c :: rest =>
    if f + c.asks margin ≤ pool then
      let w := walk pool margin (f + c.x.floor) rest
      ⟨c :: w.admitted, w.shed⟩
    else
      let w := walk pool margin f rest
      ⟨w.admitted, c :: w.shed⟩

/-! ## Level fill -/

/-- The power a set draws at a level (R63). -/
def powerAt (level : Nat) (l : List Eligible) : Nat := (l.map fun x => x.weight * min x.req level).sum

/-- The levels from 320 down to 60. -/
def levels : List Nat := (List.range 261).map (320 - ·)

/-- The level of a set with a pool (R63); 60 where no level fits, which no admitted set meets. -/
def levelOf (pool : Nat) (l : List Eligible) : Nat := (levels.find? fun c => powerAt c l ≤ pool).getD 60

/-- A bay with its grant. -/
structure Granted where
  x : Eligible
  grant : Nat
  deriving DecidableEq, Repr

/-- The power of a run of grants. -/
def powerOf (l : List Granted) : Nat := (l.map fun g => g.grant * g.x.weight).sum

/-- The remainder pass (R64). -/
def remainderPass : (leftover : Nat) → List Granted → List Granted
  | _, [] => []
  | left, g :: rest =>
    if g.grant < g.x.req ∧ g.x.weight ≤ left then
      { g with grant := g.grant + 1 } :: remainderPass (left - g.x.weight) rest
    else g :: remainderPass left rest

/-- The level grants of a set (R63). -/
def levelGrants (level : Nat) (l : List Eligible) : List Granted := l.map fun x => ⟨x, min x.req level⟩

/-- The fill of a set, in admission order, with a pool (R63, R64). -/
def fill (pool : Nat) (l : List Eligible) : List Granted :=
  let level := levelGrants (levelOf pool l) l
  remainderPass (pool - powerOf level) level

/-- The admitted bays of a class. -/
def Walk.ofClass (w : Walk) (cls : Fin 3) : List Eligible :=
  (w.admitted.filter fun c => c.x.cls = cls).map Candidate.x

/-- The class 0/1 walk with pool A01 (R59, R60). -/
def State.walk01 (s : State) (sequence : Word32) (pool : Nat) : Walk :=
  let l := s.candidates sequence
  walk pool s.settings.restoreMargin 0 (s.classOrder l 0 ++ s.classOrder l 1)

/-- The class 2 walk with pool A2 (R59, R65). -/
def State.walk2 (s : State) (sequence : Word32) (pool : Nat) : Walk :=
  walk pool s.settings.restoreMargin 0 (s.classOrder (s.candidates sequence) 2)

/-- The fills of classes 0 and 1 after their walk (R62). -/
def Walk.fill01 (w : Walk) (pool : Nat) : List Granted :=
  let zero := fill (pool - ((w.ofClass 1).map Eligible.floor).sum) (w.ofClass 0)
  zero ++ fill (pool - powerOf zero) (w.ofClass 1)

/-- The fill of class 2 after its walk (R65). -/
def Walk.fill2 (w : Walk) (pool : Nat) : List Granted := fill pool (w.ofClass 2)

/-- The grants of a grant set, 0 for every bay without one (R66). -/
def grantVector (l : List Granted) : Vector Nat 16 :=
  Vector.ofFn fun b : BayId =>
    match l.find? fun g => g.x.bay = b with
    | some g => g.grant
    | none => 0

/-! ## The stack update -/

/-- The shed stack, the unlisted set and the overflow count. -/
structure Shedding where
  stack : List ShedEntry
  unlisted : List ShedEntry
  overflow : Word32
  deriving DecidableEq, Repr

/-- An entry put in the unlisted set, which is kept in ascending bay number (R67, R73). -/
def insertUnlisted (e : ShedEntry) : List ShedEntry → List ShedEntry
  | [] => [e]
  | d :: rest => if e.bay ≤ d.bay then e :: d :: rest else d :: insertUnlisted e rest

/-- Steps 1 and 2 of R68: the entries that stay listed. -/
def Shedding.keep (stays : BayId → Bool) (z : Shedding) : Shedding :=
  { z with stack := z.stack.filter fun e => stays e.bay, unlisted := z.unlisted.filter fun e => stays e.bay }

/-- Step 3 of R68: entries beyond the depth are moved from the bottom to the unlisted set. -/
def Shedding.trim (depth : Nat) (z : Shedding) : Shedding :=
  ⟨z.stack.take depth, (z.stack.drop depth).foldr insertUnlisted z.unlisted,
    z.overflow + BitVec.ofNat 32 (z.stack.length - depth)⟩

/-- A newly shed bay is pushed (R69). -/
def Shedding.push (depth : Nat) (policy : OverflowPolicy) (e : ShedEntry) (z : Shedding) : Shedding :=
  if z.stack.length < depth then { z with stack := e :: z.stack }
  else
    match policy with
    | .wrap =>
      ⟨e :: z.stack.dropLast, z.stack.getLast?.toList.foldr insertUnlisted z.unlisted, z.overflow + 1⟩
    | .freeze => ⟨z.stack, insertUnlisted e z.unlisted, z.overflow + 1⟩

/-- The newly shed bays of the allocation in admission order: those of groups (a) and (c) that were not admitted
(R68). -/
def newlyShed (shed : List Candidate) : List BayId :=
  (shed.filter fun c => c.group ≠ .due).map fun c => c.x.bay

/-- Whether a listed bay stays listed: it is eligible, its entry is its session's own, and it was not restored (R68). -/
def State.staysListed (s : State) (admitted : List Candidate) (b : BayId) : Bool :=
  match s.eligible b with
  | none => false
  | some x => !s.staleEntry x && !(admitted.any fun c => c.x.bay = b)

/-- The stack update of an allocation (R68, R69). -/
def State.stackUpdate (s : State) (sequence : Word32) (admitted shed : List Candidate) : Shedding :=
  let kept := (Shedding.mk s.ale.shedStack s.ale.unlisted s.ale.overflowCount).keep (s.staysListed admitted)
  (newlyShed shed).foldr
    (fun b z => z.push s.settings.shedStackDepth s.settings.overflowPolicy ⟨b, sequence⟩)
    (kept.trim s.settings.shedStackDepth)

/-- The place of a bay on a shed stack whose first entry stands at `position` (R72). -/
def stackPlace (b : BayId) : (position : Nat) → List ShedEntry → Option (Nat × Word32)
  | _, [] => none
  | position, e :: rest => if e.bay = b then some (position, e.since) else stackPlace b (position + 1) rest

/-- A bay's shed place and shed-since cycle (R72). -/
def Shedding.placeOf (z : Shedding) (b : BayId) : ShedPlace × Option Word32 :=
  match stackPlace b 1 z.stack, z.unlisted.find? fun e => e.bay = b with
  | some (position, since), _ => (.stack position, some since)
  | none, some e => (.unlisted, some e.since)
  | none, none => (.none, none)

/-- The ALE's four fields of a bay after an allocation (R72). -/
def Bay.setAllocation (grant : Nat) (place : ShedPlace × Option Word32) (recorded : Option Word32) (e : Bay) : Bay :=
  { e with lastGrant := grant, shedPlace := place.1, shedSince := place.2, recordedStart := recorded }

/-- Step 2 of R39: the bay fields, the shed stack and the unlisted set are written. -/
def State.writeShedding (s : State) (z : Shedding) (grants : Vector Nat 16) : State :=
  { s with
    ale := { s.ale with shedStack := z.stack, unlisted := z.unlisted, overflowCount := z.overflow }
    blc := { s.blc with
      bays := Vector.ofFn fun b : BayId =>
        (s.bay b).setAllocation grants[b.val] (z.placeOf b) ((s.eligible b).map (·.seq)) } }

end Sys2Proof.Machine
end

