-- ==== Sys2Proof/Machine/Frames.lean ====
section
/-! DEFINITION. What stands on the lines and ports as bytes: the field-line frame (R9–R12, R23–R26, R189), the messages
of a port (R178, R187), and the bodies whose layout the manual gives (R183, R190, R191, R198). -/

namespace Sys2Proof.Machine

/-! ## Field-line frames -/

/-- A field-line frame: preamble, header byte, payload, CRC over header and payload (R189). -/
def lineFrame (kind : BitVec 4) (payload : List Byte) : List Byte :=
  0x7E#8 :: 0x81#8 :: (headerOf kind :: payload ++ crcBytes (headerOf kind :: payload))

/-- The bytes after the first preamble that began in a slot; `none` when none began. Bytes before it are ignored (R1,
R23). A slot that ends on a lone 0x7E holds a preamble that began in it, and nothing of the frame after it (R26, R38;
DEDUCED, assumption 10). -/
def afterPreamble : List Byte → Option (List Byte)
  | [] => none
  | [a] => if a = 0x7E#8 then some [] else none
  | a :: b :: rest => if a = 0x7E#8 ∧ b = 0x81#8 then some rest else afterPreamble (b :: rest)

/-- What the first frame heard in a slot is found to be. -/
inductive Heard where
  /-- No preamble began. -/
  | silence
  /-- A double header error, a kind that is not accepted, an incomplete frame or a bad CRC. -/
  | broken
  /-- A frame that passed these checks: whether its header was corrected, its kind and its payload. -/
  | frame (corrected : Bool) (kind : BitVec 4) (payload : List Byte)
  deriving DecidableEq, Repr

/-- Takes the first frame heard in a slot. `payloadLength` gives the payload bytes of each kind accepted there. The CRC
is computed over the corrected header byte and the payload as received (R10); bytes after the frame are ignored, and a
frame still incomplete at the end of the slot is discarded (R1, R12, R26). -/
def takeFrame (payloadLength : BitVec 4 → Option Nat) (heard : List Byte) : Heard :=
  match afterPreamble heard with
  | none => .silence
  | some [] => .broken
  | some (received :: rest) =>
    match decodeHeader received with
    | .doubleError => .broken
    | .read kind header corrected =>
      match payloadLength kind with
      | none => .broken
      | some n =>
        if rest.length < n + 2 then .broken
        else if crcBytes (header :: rest.take n) = (rest.drop n).take 2 then .frame corrected kind (rest.take n)
        else .broken

/-! ## Frames of the bay link -/

/-- The kinds valid upstream on the bay link, with their payload bytes (R9). -/
def upstreamLength (kind : BitVec 4) : Option Nat :=
  if kind = 0x5#4 then some 21 else if kind = 0x6#4 then some 8 else none

/-- The fields of a STATUS frame (R9). -/
structure StatusFrame where
  vehicle : VehicleState
  requested : Nat
  faultCode : Byte
  token : Option Token
  deriving DecidableEq, Repr

/-- The fields of a METER frame (R9). -/
structure MeterFrame where
  counter : Word32
  power : Int
  deriving DecidableEq, Repr

/-- The three outcomes of R12, and a slot in which no frame is taken. -/
inductive Upstream where
  | nothing
  | discarded
  | status (corrected : Bool) (frame : StatusFrame)
  | meter (corrected : Bool) (frame : MeterFrame)
  deriving DecidableEq, Repr

/-- A STATUS payload; `none` when its vehicle state is above 3 (R9, R12). -/
def statusPayload (payload : List Byte) : Option StatusFrame :=
  match payload with
  | v :: r1 :: r0 :: f :: present :: token =>
    match vehicleOf v with
    | some vehicle =>
      some ⟨vehicle, r1.toNat * 256 + r0.toNat, f, if present = 0 then none else some (BitVec.ofNat 128 (beNat token))⟩
    | none => none
  | _ => none

/-- A METER payload (R9). -/
def meterPayload (payload : List Byte) : Option MeterFrame :=
  match payload with
  | [c3, c2, c1, c0, p3, p2, p1, p0] => some ⟨word32 c3 c2 c1 c0, signed32 (word32 p3 p2 p1 p0)⟩
  | _ => none

/-- The outcome of an upstream link slot by R12. -/
def upstream (heard : List Byte) : Upstream :=
  match takeFrame upstreamLength heard with
  | .silence => .nothing
  | .broken => .discarded
  | .frame corrected kind payload =>
    if kind = 0x5#4 then
      match statusPayload payload with
      | some f => .status corrected f
      | none => .discarded
    else
      match meterPayload payload with
      | some f => .meter corrected f
      | none => .discarded

/-- The payload of a GRANT frame: bay, grant, display code, sweep number mod 256 (R9). -/
def grantPayload (b : BayId) (grant : Nat) (display : DisplayCode) (sweep : Word32) : List Byte :=
  BitVec.ofNat 8 b.val :: (beBytes 2 grant ++ [display.value, BitVec.ofNat 8 sweep.toNat])

/-- A GRANT frame (R9). -/
def grantFrame (b : BayId) (grant : Nat) (display : DisplayCode) (sweep : Word32) : List Byte :=
  lineFrame 0x3#4 (grantPayload b grant display sweep)

/-- A STATUS frame as a charge point sends it (R9). -/
def statusFrame (vehicle : VehicleState) (requested : Word16) (faultCode : Byte) (token : Option Token) : List Byte :=
  lineFrame 0x5#4 (vehicle.value :: (bytes16 requested ++ faultCode ::
    (match token with
      | some t => 1#8 :: beBytes 16 t.toNat
      | none => 0#8 :: beBytes 16 0)))

/-- A METER frame as a charge point sends it (R9). -/
def meterFrame (counter power : Word32) : List Byte := lineFrame 0x6#4 (bytes32 counter ++ bytes32 power)

/-! ## Frames of the canopy line -/

/-- The kind expected in a node's reply position (R26). -/
def expectedKind (k : NodeId) : BitVec 4 := if k.val < 8 then 0xA#4 else if k.val = 8 then 0xC#4 else 0xD#4

/-- The payload bytes of the kind expected in a node's reply position; no other kind is accepted there (R24, R26). -/
def replyLength (k : NodeId) (kind : BitVec 4) : Option Nat :=
  if kind = expectedKind k then some (if k.val = 8 then 16 else 6) else none

/-- The figures of a reply before any clamp. The last three are the battery's (R24). -/
structure Sample where
  power : Int
  charge : Nat
  maxDischarge : Nat
  maxCharge : Nat
  deriving DecidableEq, Repr

/-- The outcome of a reply position (R26). -/
inductive LineReply where
  | silent
  | discarded
  | valid (corrected : Bool) (sample : Sample)
  deriving DecidableEq, Repr

/-- A reply's payload: node field, period index field and figures (R24). -/
def samplePayload (payload : List Byte) : Option (Byte × Byte × Sample) :=
  match payload with
  | [n, i, p3, p2, p1, p0] => some (n, i, ⟨signed32 (word32 p3 p2 p1 p0), 0, 0, 0⟩)
  | [n, i, p3, p2, p1, p0, s1, s0, d3, d2, d1, d0, c3, c2, c1, c0] =>
    some (n, i, ⟨signed32 (word32 p3 p2 p1 p0), (word16 s1 s0).toNat, (word32 d3 d2 d1 d0).toNat,
      (word32 c3 c2 c1 c0).toNat⟩)
  | _ => none

/-- The outcome of node `k`'s reply position in the period with this index (R26). -/
def lineReply (k : NodeId) (period : Nat) (heard : List Byte) : LineReply :=
  match takeFrame (replyLength k) heard with
  | .silence => .silent
  | .broken => .discarded
  | .frame corrected _ payload =>
    match samplePayload payload with
    | some (n, i, sample) => if n.toNat = k.val ∧ i.toNat = period then .valid corrected sample else .discarded
    | none => .discarded

/-- The bytes of a canopy ceiling in a POLL: 0xFFFFFFFF for none (R24). -/
def ceilingBytes : Option Nat → List Byte
  | some w => beBytes 4 w
  | none => beBytes 4 0xFFFFFFFF

/-- A signed 32-bit field (R188). -/
def signedBytes (n : Int) : List Byte := beBytes 4 (BitVec.ofInt 32 n).toNat

/-- A POLL frame (R24): period index, cycle number mod 256, the canopy ceilings from node 0 to node 7, setpoint. -/
def pollFrame (period : Nat) (cycle : Word32) (ceilings : Vector (Option Nat) 8) (setpoint : Int) : List Byte :=
  lineFrame 0x9#4 (BitVec.ofNat 8 period :: BitVec.ofNat 8 cycle.toNat ::
    (ceilings.toList.flatMap ceilingBytes ++ signedBytes setpoint))

/-- A CANOPY_SAMPLE or METER_SAMPLE frame as node `k` sends it (R24). -/
def sampleFrame (k : NodeId) (period : Byte) (power : Word32) : List Byte :=
  lineFrame (expectedKind k) (BitVec.ofNat 8 k.val :: period :: bytes32 power)

/-- A BATTERY_SAMPLE frame as node 8 sends it (R24). -/
def batteryFrame (period : Byte) (power : Word32) (charge : Word16) (maxDischarge maxCharge : Word32) : List Byte :=
  lineFrame 0xC#4 (8#8 :: period :: (bytes32 power ++ bytes16 charge ++ bytes32 maxDischarge ++ bytes32 maxCharge))

/-! ## Messages of a port -/

/-- A message on a port: start byte, length, role, tag, kind, flags, body, CRC over all but the start byte (R187). -/
def envelope (role : Byte) (tag : Word16) (kind flags : Byte) (body : List Byte) : List Byte :=
  let inner := beBytes 2 body.length ++ role :: (bytes16 tag ++ kind :: flags :: body)
  0xC3#8 :: (inner ++ crcBytes inner)

/-- A request as software sends it: flags byte 0 (R187). -/
def requestMessage (role : Byte) (tag : Word16) (kind : Byte) (body : List Byte) : List Byte :=
  envelope role tag kind 0 body

/-- The fields of a well-framed message. -/
structure Framed where
  request : Request
  flags : Byte
  deriving DecidableEq, Repr

/-- What the bytes taken after a start byte amount to (R178). -/
inductive Framing where
  /-- More bytes are needed. -/
  | incomplete
  /-- The length is above 1,152, or the CRC is bad. -/
  | damaged
  | whole (message : Framed)
  deriving DecidableEq, Repr

/-- Judges the bytes taken after a start byte: the length as soon as it stands, the CRC when the last byte has been
taken (R178, R187). -/
def framing (taken : List Byte) : Framing :=
  match taken with
  | l1 :: l0 :: rest =>
    let length := l1.toNat * 256 + l0.toNat
    if 1152 < length then .damaged
    else if rest.length < length + 7 then .incomplete
    else
      match rest with
      | role :: t1 :: t0 :: kind :: flags :: tail =>
        if crcBytes (taken.take (length + 7)) = tail.drop length then
          .whole ⟨⟨role, word16 t1 t0, kind, tail.take length⟩, flags⟩
        else .damaged
      | _ => .incomplete
  | _ => .incomplete

/-- What a port's receiver meets in the bytes it examines (R178). -/
inductive Reception where
  | discard
  | message (message : Framed)
  deriving DecidableEq, Repr

/-- The receiver of a port examines bytes (R178). After a damaged message hunting resumes with the byte after its start
byte, so the bytes taken are examined again. Each byte examined uses one unit of `fuel`. -/
def scan : (fuel : Nat) → Receiver → List Byte → List Reception × Receiver
  | 0, r, _ => ([], r)
  | _ + 1, r, [] => ([], r)
  | fuel + 1, .hunting, b :: rest =>
    if b = 0xC3#8 then scan fuel (.inMessage []) rest else scan fuel .hunting rest
  | fuel + 1, .inMessage taken, b :: rest =>
    match framing (taken ++ [b]) with
    | .incomplete => scan fuel (.inMessage (taken ++ [b])) rest
    | .damaged =>
      let next := scan fuel .hunting (taken ++ b :: rest)
      (.discard :: next.1, next.2)
    | .whole m =>
      let next := scan fuel .hunting rest
      (.message m :: next.1, next.2)

/-- The bytes a receiver holds. -/
def Receiver.taken : Receiver → List Byte
  | .hunting => []
  | .inMessage taken => taken

/-- The receiver of a port examines all the bytes that have arrived. Every discard drops one start byte for good, so
the bytes are examined at most once for each of them. -/
def examine (r : Receiver) (bytes : List Byte) : List Reception × Receiver :=
  scan ((r.taken.length + bytes.length + 1) * (r.taken.length + bytes.length + 1)) r bytes

/-! ## Bodies whose layout the manual gives -/

/-- A site-clock time: day number, ms of day; the absent form is all ones (R188). -/
def timeBytes : Option SiteTime → List Byte
  | some t => beBytes 2 t.day.val ++ beBytes 4 t.ms.val
  | none => beBytes 2 0xFFFF ++ beBytes 4 0xFFFFFFFF

/-- A line of a RECEIPT body, 33 bytes (R191). -/
def lineBytes (l : ReceiptLine) : List Byte :=
  beBytes 1 l.recordIndex ++ timeBytes l.firstUse ++ beBytes 2 l.triple.solar ++ beBytes 2 l.triple.battery ++
    beBytes 2 l.triple.grid ++ beBytes 16 (l.solar * 2 ^ 84 + l.battery * 2 ^ 42 + l.grid) ++ beBytes 4 l.cost

/-- The body of a RECEIPT notice: 80 bytes and 33 for each line (R191). -/
def receiptBody (r : Receipt) : List Byte :=
  beBytes 4 r.number.toNat ++ timeBytes r.issueTime ++ beBytes 1 r.head.val ++ beBytes 4 r.startSeq.toNat ++
    (match r.token with
      | some t => 1#8 :: beBytes 16 t.toNat
      | none => 0#8 :: beBytes 16 0) ++
    beBytes 1 r.plan.val ++ beBytes 8 r.label.toNat ++ beBytes 1 r.cls.val ++ beBytes 1 r.firstBay.val ++
    beBytes 1 r.lastBay.val ++ timeBytes r.startTime ++ timeBytes r.endTime ++ [r.endReason.value] ++
    beBytes 1 r.records ++ beBytes 1 r.lines.length ++
    (match r.idleLine with
      | some i => 1#8 :: (beBytes 4 i.minutes ++ beBytes 4 i.fee)
      | none => 0#8 :: (beBytes 4 0 ++ beBytes 4 0)) ++
    beBytes 6 r.totalMWh ++ beBytes 6 r.totalCents ++ r.lines.flatMap lineBytes

/-- The head of a reply, 10 bytes: result code, receive queue occupancy, error count, dropped count (R183). -/
def replyHead (r : Reply) : List Byte :=
  r.code.value :: (beBytes 1 r.occupancy ++ beBytes 4 r.errors.toNat ++ beBytes 4 r.dropped.toNat)

/-- The bytes of a message's body, for the bodies whose layout the manual gives: RECEIPT (R191), START (R198), a reply
of the head alone (R183) and the reply to AUTHORIZE (R190). Other messages are described by their named fields. -/
def Body.bytes : Body → Option (List Byte)
  | .notice _ (.receipt r _) => some (receiptBody r)
  | .notice time (.start cause defaults) =>
    some (timeBytes time ++ [cause.value, if defaults then 1 else 0])
  | .reply ⟨code, occupancy, errors, dropped, .nothing⟩ =>
    some (replyHead ⟨code, occupancy, errors, dropped, .nothing⟩)
  | .reply ⟨code, occupancy, errors, dropped, .authorised record startSeq⟩ =>
    some (replyHead ⟨code, occupancy, errors, dropped, .nothing⟩ ++ beBytes 1 record.val ++
      beBytes 4 startSeq.toNat)
  | _ => none

/-- The bytes of a whole message on its port, for the bodies whose layout the manual gives (R187). -/
def Message.bytes (m : Message) : Option (List Byte) :=
  m.body.bytes.map (envelope m.role m.tag m.kind m.flags)

end Sys2Proof.Machine
end

