-- ==== Sys2Proof/Machine/Reports.lean ====
section
/-! DEFINITION. The events the Session Manager takes from the Bay Link Controller and the Allocation Engine: STATUS,
SILENT, UNSCHEDULED and GRANT_SET (R79, R81, R82, R87, R93–R95, R104, R105). -/

namespace Sys2Proof.Machine

/-- The PENDING record a bay's request takes (R81). R81 has its other fields absent or 0 and R78 gives a charge state
neither value; it holds WAITING, and GET_SESSION shows it (DESIGN CHOICE, assumption 17). -/
def State.pendingRecord (s : State) (b : BayId) (token : Token) : Record :=
  { Record.cleared with
    state := .pending
    bay := b
    token := some token
    depth := 1
    authDeadline := s.deadline (1000 * s.settings.authorisationTimeout) }

/-- A record goes to PENDING for a bay and AUTH_REQUEST is handed over (R81). -/
def State.raiseRequest (r : RecordId) (b : BayId) (token : Token) (s : State) : State :=
  let g := s.pendingRecord b token
  ((s.takeRecord r g).setSession b (some r)).notify (.authRequest b (r.val + 1) (some token) g.authDeadline)

/-- No record is FREE for a bay's request: NO_CONTEXT is sent once (R82). -/
def State.sayNoContext (b : BayId) (s : State) : State :=
  if s.ssm.noContextMark[b.val] then s else (s.notify (.bayNoContext b)).setNoContextMark b true

/-- A STATUS event on a bay with no live record that is not reserved (R81). -/
def State.requestReport (b : BayId) (report : Report) (s : State) : State :=
  match report.token with
  | none => s
  | some token =>
    if report.vehicle.asks ∧ !s.ssm.endedLatch[b.val] ∧ s.now.isSome then
      match s.freeRecord with
      | some r => s.raiseRequest r b token
      | none => s.sayNoContext b
    else s

/-- A STATUS event on a bay whose live record is PENDING (R79, R87). -/
def State.pendingReport (r : RecordId) (report : Report) (s : State) : State :=
  match report.vehicle with
  | .unplugged => s.withdraw r .unplugged
  | .fault => s.withdraw r .fault
  | .plugged => s
  | .demanding => s

/-- A STATUS event on a bay whose live record is ACTIVE (R79). -/
def State.activeReport (r : RecordId) (report : Report) (s : State) : State :=
  match report.vehicle with
  | .unplugged => s.closeChain r .unplugged false
  | .fault => s.suspend r .fault
  | .plugged => s
  | .demanding => s

/-- The end reason of a chain whose SUSPENDED head's bay reports UNPLUGGED (R95). -/
def SuspensionReason.departure : Option SuspensionReason → EndReason
  | some .fault => .unplugged
  | _ => .lost

/-- A STATUS event on a bay whose live record is SUSPENDED (R95). -/
def State.suspendedReport (r : RecordId) (report : Report) (s : State) : State :=
  match report.vehicle with
  | .unplugged => s.closeChain r (SuspensionReason.departure (s.record r).suspension) false
  | .fault => s
  | .plugged => if report.token = (s.record r).token then s.resume r else s.closeChain r .lost true
  | .demanding => if report.token = (s.record r).token then s.resume r else s.closeChain r .lost true

/-- Step 2 of R79: the event is taken according to the bay's situation. -/
def State.situationStep (b : BayId) (report : Report) (s : State) : State :=
  match (s.bay b).reservedFor, (s.bay b).session with
  | some head, _ => s.reservedReport head b report
  | none, none => s.requestReport b report
  | none, some r =>
    match (s.record r).state with
    | .pending => s.pendingReport r report
    | .active => s.activeReport r report
    | .suspended => s.suspendedReport r report
    | .transferring => s
    | .free => s.requestReport b report
    | .linked => s.requestReport b report
    | .closed => s.requestReport b report
    | .receipted => s.requestReport b report

/-- Step 3 of R79. -/
def State.clearMarks (b : BayId) (report : Report) (s : State) : State :=
  if report.vehicle = .unplugged then
    ((s.setEndedLatch b false).setNoContextMark b false).modBay b fun e => { e with foreignMark := false }
  else s

/-- A STATUS event at the SSM (R79). -/
def State.statusEvent (b : BayId) (report previous : Report) (previousTime : Option SiteTime) (s : State) : State :=
  ((s.idleStep b report previous previousTime).situationStep b report).clearMarks b report

/-- The withdrawal cause of a suspension reason (R87). -/
def SuspensionReason.cause : SuspensionReason → WithdrawCause
  | .fault => .fault
  | .silent => .silent
  | .unscheduled => .unscheduled

/-- A SILENT or UNSCHEDULED event at the SSM (R87, R94, R104, R105). -/
def State.lossEvent (b : BayId) (reason : SuspensionReason) (s : State) : State :=
  match (s.bay b).reservedFor, (s.bay b).session with
  | none, some r =>
    match (s.record r).state with
    | .pending => s.withdraw r reason.cause
    | .active => s.suspend r reason
    | .suspended => s.modRecord r fun g => { g with suspension := some reason }
    | .transferring => s
    | .free => s
    | .linked => s
    | .closed => s
    | .receipted => s
  | _, _ => s

/-! ## Charge states -/

/-- The charge state of an ACTIVE record by the table of R93. -/
def State.chargeOf (s : State) (g : Record) : ChargeState :=
  let e := s.bay g.bay
  if e.recordedStart.isNone ∨ e.recordedStart ≠ g.startSeq then
    if e.lastStatus.vehicle ≠ .demanding then .idle else .waiting
  else if 0 < e.lastGrant then .running
  else if e.shedPlace ≠ .none then .shed
  else .waiting

/-- The refresh of one record at a GRANT_SET event (R93). -/
def State.refreshRecord (r : RecordId) (s : State) : State :=
  let g := s.record r
  if g.state = .active ∧ s.chargeOf g ≠ g.charge then
    (s.modRecord r fun g => { g with charge := s.chargeOf g }).notify
      (.session (.chargeState r g.bay (s.chargeOf g) (s.bay g.bay).lastGrant))
  else s

/-- A GRANT_SET event at the SSM: every ACTIVE record's charge state is refreshed, in ascending record id (R93;
assumption 14 for the order). -/
def State.grantSetEvent (s : State) : State := allRecords.foldl (fun t r => t.refreshRecord r) s

end Sys2Proof.Machine
end

