-- ==== Sys2Proof/Machine/SettingsStore.lean ====
section
/-! DEFINITION. The Settings Store: the table of settings, bringing a value within its range, SET_SETTING, saving, and
what a start-up loads (R192–R196). -/

namespace Sys2Proof.Machine

/-! ## The table of settings -/

/-- The settings of R192. -/
inductive SettingId where
  | sweepPeriod
  | silentThreshold
  | enabled (b : BayId)
  | phases (b : BayId)
  | cableRating (b : BayId)
  | periodsPerCycle
  | periodLength
  | windowStart
  | windowStop
  | holdCycles
  | converterRating (k : Fin 8)
  | importLimit
  | margin
  | reserveFloor
  | chargeStop
  | exportLimit
  | probeStep
  | fallbackPool
  | shedHold
  | restoreMargin
  | shedStackDepth
  | overflowPolicy
  | authorisationTimeout
  | resumeWindow
  | transferTimeout
  | tokenFreeTransfer
  | protectedPlans
  | intervalLength
  | demandTarget
  | ceilingA
  | ceilingB
  | receiptPort
  | authorisationPort
  deriving DecidableEq, Repr

/-- The setting an id names, the ids of a bay or a node apart (R192). -/
def singleSetting (n : Nat) : Option SettingId :=
  match n with
  | 0x0001 => some .sweepPeriod
  | 0x0002 => some .silentThreshold
  | 0x0040 => some .periodsPerCycle
  | 0x0041 => some .periodLength
  | 0x0042 => some .windowStart
  | 0x0043 => some .windowStop
  | 0x0044 => some .holdCycles
  | 0x0050 => some .importLimit
  | 0x0051 => some .margin
  | 0x0052 => some .reserveFloor
  | 0x0053 => some .chargeStop
  | 0x0054 => some .exportLimit
  | 0x0055 => some .probeStep
  | 0x0056 => some .fallbackPool
  | 0x0058 => some .shedHold
  | 0x0059 => some .restoreMargin
  | 0x005A => some .shedStackDepth
  | 0x005B => some .overflowPolicy
  | 0x0060 => some .authorisationTimeout
  | 0x0061 => some .resumeWindow
  | 0x0062 => some .transferTimeout
  | 0x0063 => some .tokenFreeTransfer
  | 0x0068 => some .protectedPlans
  | 0x0070 => some .intervalLength
  | 0x0071 => some .demandTarget
  | 0x0078 => some .ceilingA
  | 0x0079 => some .ceilingB
  | 0x007A => some .receiptPort
  | 0x007B => some .authorisationPort
  | _ => none

/-- The setting an id names (R192). -/
def settingOf (id : Word16) : Option SettingId :=
  if 0x0010 ≤ id.toNat ∧ id.toNat < 0x0020 then (below 16 (id.toNat - 0x0010)).map .enabled
  else if 0x0020 ≤ id.toNat ∧ id.toNat < 0x0030 then (below 16 (id.toNat - 0x0020)).map .phases
  else if 0x0030 ≤ id.toNat ∧ id.toNat < 0x0040 then (below 16 (id.toNat - 0x0030)).map .cableRating
  else if 0x0048 ≤ id.toNat ∧ id.toNat < 0x0050 then (below 8 (id.toNat - 0x0048)).map .converterRating
  else singleSetting id.toNat

/-- The settings that are one value for the site. -/
def siteSettings : List SettingId :=
  [.sweepPeriod, .silentThreshold, .periodsPerCycle, .periodLength, .windowStart, .windowStop, .holdCycles,
    .importLimit, .margin, .reserveFloor, .chargeStop, .exportLimit, .probeStep, .fallbackPool, .shedHold,
    .restoreMargin, .shedStackDepth, .overflowPolicy, .authorisationTimeout, .resumeWindow, .transferTimeout,
    .tokenFreeTransfer, .protectedPlans, .intervalLength, .demandTarget, .ceilingA, .ceilingB, .receiptPort,
    .authorisationPort]

/-- Every setting of R192 once: those of the site, of each bay and of each canopy converter. -/
def allSettings : List SettingId :=
  List.flatten [siteSettings, allBays.map SettingId.enabled, allBays.map SettingId.phases,
    allBays.map SettingId.cableRating, canopyNodes.map SettingId.converterRating]

/-- A value brought to the nearest end of a range. -/
def clampNat (low high v : Nat) : Nat := max low (min high v)

/-- The value taken for a setting (R193); `none` is refused with BAD_ARG. -/
def SettingId.taken (v : Nat) : SettingId → Option Nat
  | .sweepPeriod => some (clampNat 200 2000 v)
  | .silentThreshold => some (clampNat 1 15 v)
  | .enabled _ => some (min v 1)
  | .phases _ => some (if v ≤ 2 then 1 else 3)
  | .cableRating _ => some (clampNat 60 320 v)
  | .periodsPerCycle => some (clampNat 4 40 v)
  | .periodLength => some (clampNat 50 500 (v / 50 * 50))
  | .windowStart => some (clampNat 0 39 v)
  | .windowStop => some (clampNat 0 39 v)
  | .holdCycles => some (clampNat 1 10 v)
  | .converterRating _ => some (clampNat 0 2000000 v)
  | .importLimit => some (clampNat 0 2000000 v)
  | .margin => some (clampNat 0 50000 v)
  | .reserveFloor => some (clampNat 0 1000 v)
  | .chargeStop => some (clampNat 0 1000 v)
  | .exportLimit => some (if v = 0xFFFFFFFF then v else clampNat 0 2000000 v)
  | .probeStep => some (clampNat 0 20000 v)
  | .fallbackPool => some (clampNat 0 2000000 v)
  | .shedHold => some (clampNat 0 60 v)
  | .restoreMargin => some (clampNat 0 20000 v)
  | .shedStackDepth => some (clampNat 1 16 v)
  | .overflowPolicy => if v ≤ 1 then some v else none
  | .authorisationTimeout => some (clampNat 1 60 v)
  | .resumeWindow => some (clampNat 10 900 v)
  | .transferTimeout => some (clampNat 30 1800 v)
  | .tokenFreeTransfer => some (min v 1)
  | .protectedPlans => some (v % 65536)
  | .intervalLength => some (if 1800 ≤ v then 1800 else if 900 ≤ v then 900 else 300)
  | .demandTarget => some (clampNat 0 2000000 v)
  | .ceilingA => some (clampNat 0 2 v)
  | .ceilingB => some (clampNat 0 2 v)
  | .receiptPort => if v ≤ 1 then some v else none
  | .authorisationPort => if v ≤ 1 then some v else none

/-- The code of a port in a routing setting: Port A 0, Port B 1 (R192). -/
def portCode : Port → Nat
  | .a => 0
  | .b => 1

/-- The port of a routing setting's code. -/
def portOf (v : Nat) : Port := if v = 0 then .a else .b

/-- A setting's working value as a number, two-way choices coded 0 and 1 and the export limit none as 0xFFFFFFFF
(R192). -/
def SettingId.value (t : Settings) : SettingId → Nat
  | .sweepPeriod => t.sweepPeriod
  | .silentThreshold => t.silentThreshold
  | .enabled b => t.enabled[b.val].toNat
  | .phases b => t.phases[b.val]
  | .cableRating b => t.cableRating[b.val]
  | .periodsPerCycle => t.periodsPerCycle
  | .periodLength => t.periodLength
  | .windowStart => t.windowStart
  | .windowStop => t.windowStop
  | .holdCycles => t.holdCycles
  | .converterRating k => t.converterRating[k.val]
  | .importLimit => t.importLimit
  | .margin => t.margin
  | .reserveFloor => t.reserveFloor
  | .chargeStop => t.chargeStop
  | .exportLimit => t.exportLimit.getD 0xFFFFFFFF
  | .probeStep => t.probeStep
  | .fallbackPool => t.fallbackPool
  | .shedHold => t.shedHold
  | .restoreMargin => t.restoreMargin
  | .shedStackDepth => t.shedStackDepth
  | .overflowPolicy => if t.overflowPolicy = .wrap then 0 else 1
  | .authorisationTimeout => t.authorisationTimeout
  | .resumeWindow => t.resumeWindow
  | .transferTimeout => t.transferTimeout
  | .tokenFreeTransfer => t.tokenFreeTransfer.toNat
  | .protectedPlans => t.protectedPlans.toNat
  | .intervalLength => t.intervalLength
  | .demandTarget => t.demandTarget
  | .ceilingA => t.ceilingA
  | .ceilingB => t.ceilingB
  | .receiptPort => portCode t.receiptPort
  | .authorisationPort => portCode t.authorisationPort

/-- Writes a value taken as a setting's working value. -/
def SettingId.write (v : Nat) (t : Settings) : SettingId → Settings
  | .sweepPeriod => { t with sweepPeriod := v }
  | .silentThreshold => { t with silentThreshold := v }
  | .enabled b => { t with enabled := put t.enabled b (v != 0) }
  | .phases b => { t with phases := put t.phases b v }
  | .cableRating b => { t with cableRating := put t.cableRating b v }
  | .periodsPerCycle => { t with periodsPerCycle := v }
  | .periodLength => { t with periodLength := v }
  | .windowStart => { t with windowStart := v }
  | .windowStop => { t with windowStop := v }
  | .holdCycles => { t with holdCycles := v }
  | .converterRating k => { t with converterRating := put t.converterRating k v }
  | .importLimit => { t with importLimit := v }
  | .margin => { t with margin := v }
  | .reserveFloor => { t with reserveFloor := v }
  | .chargeStop => { t with chargeStop := v }
  | .exportLimit => { t with exportLimit := if v = 0xFFFFFFFF then none else some v }
  | .probeStep => { t with probeStep := v }
  | .fallbackPool => { t with fallbackPool := v }
  | .shedHold => { t with shedHold := v }
  | .restoreMargin => { t with restoreMargin := v }
  | .shedStackDepth => { t with shedStackDepth := v }
  | .overflowPolicy => { t with overflowPolicy := if v = 0 then .wrap else .freeze }
  | .authorisationTimeout => { t with authorisationTimeout := v }
  | .resumeWindow => { t with resumeWindow := v }
  | .transferTimeout => { t with transferTimeout := v }
  | .tokenFreeTransfer => { t with tokenFreeTransfer := v != 0 }
  | .protectedPlans => { t with protectedPlans := BitVec.ofNat 16 v }
  | .intervalLength => { t with intervalLength := v }
  | .demandTarget => { t with demandTarget := v }
  | .ceilingA => { t with ceilingA := v }
  | .ceilingB => { t with ceilingB := v }
  | .receiptPort => { t with receiptPort := portOf v }
  | .authorisationPort => { t with authorisationPort := portOf v }

/-- A setting's value in a stored image, brought within its range as R193 would bring it (R196). -/
def SettingId.restore (t : Settings) (id : SettingId) : Settings := id.write ((id.taken (id.value t)).getD (id.value t)) t

/-- The stored values, each brought within its range as R193 would bring it (R196). -/
def Settings.restored (t : Settings) : Settings := allSettings.foldl SettingId.restore t

/-- Whether a value of a port ceiling would leave both ceilings above 0 (R182). -/
def SettingId.shutsOut (t : Settings) (v : Nat) : SettingId → Bool
  | .ceilingA => 0 < v && 0 < t.ceilingB
  | .ceilingB => 0 < v && 0 < t.ceilingA
  | _ => false

/-- Whether a save is in flight (R194). -/
def State.saving (s : State) : Bool :=
  match s.sst.save with
  | .idle => false
  | .saving _ _ => true

/-- Writes the working settings. -/
def State.setWorking (t : Settings) (s : State) : State := { s with sst := { s.sst with working := t } }

/-- SET_SETTING at its block (R182, R193). R193 lists the reply contents without saying whether a refused request
carries them; a refusal carries the head alone (DESIGN CHOICE, assumption 25). -/
def setSetting (id : Word16) (value : Word32) (s : State) : Answer :=
  match settingOf id with
  | none => .refuse .badArg s
  | some setting =>
    match setting.taken value.toNat with
    | none => .refuse .badArg s
    | some v =>
      if setting.shutsOut s.settings v then .refuse .denied s
      else
        ⟨if v = value.toNat then .ok else .clamped, .setting v s.saving s.sst.image.valid,
          s.setWorking (setting.write v s.settings)⟩

/-- SET_SETTING(id, value) (R193). -/
def execSetSetting (p : Port) (id : Word16) (value : Word32) (s : State) : Result :=
  serve p (.setSetting p id value) s fun _ => setSetting id value s

/-! ## Saving -/

/-- A save begins: a copy of the working set is taken, the stored image is marked invalid, and the request stays in
service until the completion (R194). -/
def State.beginSave (p : Port) (s : State) : State :=
  { s with
    sst := { s.sst with image := { s.sst.image with valid := false }, save := .saving s.settings p } }.modPort p
      fun c => { c with service := .awaiting }

/-- SAVE_SETTINGS (R194). -/
def execSaveSettings (p : Port) (s : State) : Result :=
  match s.takenLevel p (.saveSettings p) with
  | some _ => .next (if s.saving then (Answer.refuse .busy s).send p else s.beginSave p)
  | none => .next s

/-- SAVE_COMPLETE: the stored image holds the copy and is valid, the save state is IDLE, and the OK reply is handed to
the port the request came from (R194). With no save in flight nothing completes. -/
def execSaveComplete (s : State) : Result :=
  match s.sst.save with
  | .saving copy p =>
    .next (({ s with sst := { s.sst with image := ⟨true, copy⟩, save := .idle } } : State).modPort p fun c =>
      if c.service = .awaiting then c.answer .ok .nothing else c)
  | .idle => .next s

/-! ## What a start-up loads -/

/-- The working set a start-up loads from the stored image (R196). -/
def StoredImage.load (image : StoredImage) : Settings :=
  if image.valid then image.contents.restored else Settings.defaults

/-- Staged masks expanded under a bay's enabled setting (R3). -/
def expandMasks (enabled : Bool) (b : BayId) (m : Masks) : Masks :=
  if !enabled then ⟨0, 0⟩
  else if m.down = 0 ∧ m.up = 0 then Masks.defaultSlots b
  else m

/-- The effective stop of the measurement window (R28). -/
def effectiveStop (t : Settings) : Nat := min t.windowStop (t.periodsPerCycle - 1)

/-- The effective start of the measurement window (R28). -/
def effectiveStart (t : Settings) : Nat := min t.windowStart (effectiveStop t)

end Sys2Proof.Machine
end

