-- ==== Sys2Proof/Machine/BayLink.lean ====
section
/-! DEFINITION. The Bay Link Controller: the schedule and its commands, sweep starts, link states, reports, meters,
grants and display codes (R1–R20). -/

namespace Sys2Proof.Machine

/-! ## The schedule -/

/-- GET_SCHEDULE (R7). -/
def execGetSchedule (p : Port) (s : State) : Result :=
  serve p (.getSchedule p) s fun _ =>
    .same .ok (.schedule s.blc.staged s.blc.active s.blc.pendingCopy) s

/-- STAGE_SLOTS at its block (R4). -/
def stageSlots (bay : Byte) (down : Word16) (up : Word32) (s : State) : Answer :=
  match bayOperand bay with
  | none => .refuse .badArg s
  | some b => ⟨.ok, .nothing, { s with blc := { s.blc with staged := put s.blc.staged b ⟨down, up⟩ } }⟩

/-- STAGE_SLOTS(bay, downstream mask, upstream mask) (R4). -/
def execStageSlots (p : Port) (bay : Byte) (down : Word16) (up : Word32) (s : State) : Result :=
  serve p (.stageSlots p bay down up) s fun _ => stageSlots bay down up s

/-- The staged copy expanded under the enabled settings as they stand (R3). -/
def State.expanded (s : State) : Vector Masks 16 :=
  Vector.ofFn fun b : BayId => expandMasks s.settings.enabled[b.val] b s.blc.staged[b.val]

/-- The first two bays that hold a link slot, when two or more do (R5). -/
def twoOwners (holds : BayId → Bool) : Option (BayId × BayId) :=
  match allBays.filter holds with
  | first :: second :: _ => some (first, second)
  | _ => none

/-- The lowest downstream link slot of a copy that belongs to two bays, with the two lowest-numbered of them (R5). -/
def downClash (copy : Vector Masks 16) : Option (Nat × BayId × BayId) :=
  (List.range 16).findSome? fun n =>
    (twoOwners fun b => copy[b.val].down.getLsbD n).map fun owners => (n, owners)

/-- The lowest upstream link slot of a copy that belongs to two bays, with the two lowest-numbered of them (R5). -/
def upClash (copy : Vector Masks 16) : Option (Nat × BayId × BayId) :=
  (List.range 32).findSome? fun n =>
    (twoOwners fun b => copy[b.val].up.getLsbD n).map fun owners => (n, owners)

/-- COMMIT_SCHEDULE at its block (R5). -/
def commitSchedule (s : State) : Answer :=
  match downClash s.expanded, upClash s.expanded with
  | some (n, first, second), _ => .same .conflict (.clash true n first second) s
  | none, some (n, first, second) => .same .conflict (.clash false n first second) s
  | none, none => ⟨.ok, .nothing, { s with blc := { s.blc with pendingCopy := some s.expanded } }⟩

/-- COMMIT_SCHEDULE (R5). -/
def execCommitSchedule (p : Port) (s : State) : Result := serve p (.commitSchedule p) s fun _ => commitSchedule s

/-! ## Sweep start -/

/-- The close of the ended sweep for one bay that was scheduled in it: its miss count, the move to SILENT and the
SILENT event (R14). -/
def State.closeSweepBay (b : BayId) (s : State) : State :=
  if !s.scheduled b ∨ s.blc.heard[b.val] then s
  else
    let missed := min 255 ((s.bay b).missCount + 1)
    let counted := s.modBay b fun e => { e with missCount := missed }
    if missed < s.settings.silentThreshold then counted
    else
      match (s.bay b).link with
      | .online => (counted.modBay b fun e => { e with link := .silent }).lossEvent b .silent
      | .scheduledWait => counted.modBay b fun e => { e with link := .silent }
      | .silent => counted
      | .absent => counted

/-- Step 1 of R2. -/
def State.closeSweep (s : State) : State :=
  if s.blc.sweepBegun then allBays.foldl (fun t b => t.closeSweepBay b) s else s

/-- The effect of an applied commit on one bay, from the copy that was active to the one that is (R6). -/
def State.applyToBay (old new : Vector Masks 16) (b : BayId) (s : State) : State :=
  match old[b.val].scheduled, new[b.val].scheduled with
  | true, false => (s.modBay b fun e => { e with link := .absent, missCount := 0 }).lossEvent b .unscheduled
  | false, true => s.modBay b fun e => { e with link := .scheduledWait, missCount := 0 }
  | true, true => s
  | false, false => s

/-- Step 2 of R2: the pending commit, if one exists, is applied (R6). -/
def State.applyCommit (s : State) : State :=
  match s.blc.pendingCopy with
  | none => s
  | some copy =>
    allBays.foldl (fun t b => t.applyToBay s.blc.active copy b)
      { s with blc := { s.blc with active := copy, pendingCopy := none } }

/-- Steps 3 and 4 of R2, and the sweep that begins: nothing is heard in it yet, and it takes the sweep period (R1). -/
def State.beginSweep (s : State) : State :=
  { s with
    blc := { s.blc with
      grantSource := s.ale.current
      sweepNumber := if s.blc.sweepBegun then s.blc.sweepNumber + 1 else s.blc.sweepNumber
      sweepBegun := true
      sweepPeriodTaken := s.settings.sweepPeriod
      heard := Vector.replicate 16 false } }

/-- A sweep start (R2). The first one after a reset closes no sweep and leaves the sweep number at 0. -/
def State.sweepStart (s : State) : State := s.closeSweep.applyCommit.beginSweep

/-- SWEEP_START (R2). The first sweep start is start-up's own (R198), so each of these ends a sweep. -/
def execSweepStart (s : State) : Result := .next s.sweepStart

/-! ## Upstream link slots -/

/-- A valid frame on a scheduled bay: the miss count becomes 0 and the bay is ONLINE (R13); the sweep has heard it
(R14). -/
def State.hear (b : BayId) (s : State) : State :=
  let online := s.modBay b fun e => { e with link := .online, missCount := 0 }
  { online with blc := { online.blc with heard := put online.blc.heard b true } }

/-- A valid frame raises one of the bay's two counters (R12). -/
def State.countValid (b : BayId) (corrected : Bool) (s : State) : State :=
  s.modBay b fun e =>
    if corrected then { e with correctedFrames := e.correctedFrames + 1 }
    else { e with goodFrames := e.goodFrames + 1 }

/-- The held request of a requested current under a cable rating (R15). -/
def heldRequest (requested cable : Nat) : Nat :=
  if requested = 0 then 0 else if requested < 60 then 60 else min requested (min cable 320)

/-- The effective report of a STATUS frame (R15). -/
def effectiveReport (cable : Nat) (f : StatusFrame) : Report :=
  ⟨if f.vehicle = .demanding ∧ f.requested = 0 then .plugged else f.vehicle, heldRequest f.requested cable, f.faultCode,
    f.token⟩

/-- A valid STATUS on a scheduled bay, after its link state: the effective report is handed to the SSM and then stored
with its arrival time (R15). -/
def State.takeStatus (b : BayId) (f : StatusFrame) (s : State) : State :=
  let report := effectiveReport s.settings.cableRating[b.val] f
  (s.statusEvent b report (s.bay b).lastStatus (s.bay b).lastStatusTime).modBay b fun e =>
    { e with lastStatus := report, lastStatusTime := s.now }

/-- STATUS: upstream link slot `slot` ends with a valid STATUS frame heard in it (R12, R15). A slot no bay owns, and
bytes that spell no valid STATUS, are no such event. -/
def execStatus (slot : Fin 32) (heard : List Byte) (s : State) : Result :=
  match s.upOwner slot, upstream heard with
  | some b, .status corrected f =>
    let counted := s.countValid b corrected
    .next (if s.scheduled b then (counted.hear b).takeStatus b f else counted)
  | _, _ => .next s

/-- The energy delta of a reported counter, and whether it is a meter jump (R16). -/
def meterDelta (last : Option Word32) (counter : Word32) : Nat × Bool :=
  match last with
  | none => (0, false)
  | some c => if (counter - c).toNat ≤ 100000 then ((counter - c).toNat, false) else (0, true)

/-- The last power of a reported power (R16). -/
def lastPowerOf (power : Int) : Nat := min 2000000 power.toNat

/-- What a valid METER leaves in the bay table: last power, last counter and jump count (R16). -/
def State.readMeter (b : BayId) (f : MeterFrame) (s : State) : State :=
  s.modBay b fun e =>
    { e with
      lastPower := lastPowerOf f.power
      lastCounter := some f.counter
      jumpCount := if (meterDelta e.lastCounter f.counter).2 then e.jumpCount + 1 else e.jumpCount }

/-- A delta goes to the bay's ACTIVE or SUSPENDED record, or to its unbilled Wh (R17). -/
def State.routeDelta (b : BayId) (e : Nat) (counter : Word32) (s : State) : State :=
  match (s.bay b).session with
  | none => s.addUnbilled b e
  | some r =>
    if (s.record r).state = .active ∨ (s.record r).state = .suspended then s.meterEvent r e counter
    else s.addUnbilled b e

/-- A valid METER on a scheduled bay, after its link state (R16, R17). -/
def State.takeMeter (b : BayId) (f : MeterFrame) (s : State) : State :=
  (s.readMeter b f).routeDelta b (meterDelta (s.bay b).lastCounter f.counter).1 f.counter

/-- METER: upstream link slot `slot` ends with a valid METER frame heard in it (R12, R16). -/
def execMeter (slot : Fin 32) (heard : List Byte) (s : State) : Result :=
  match s.upOwner slot, upstream heard with
  | some b, .meter corrected f =>
    let counted := s.countValid b corrected
    .next (if s.scheduled b then (counted.hear b).takeMeter b f else counted)
  | _, _ => .next s

/-- DISCARDED_FRAME: upstream link slot `slot` ends with a frame heard in it that is discarded (R12). -/
def execDiscardedFrame (slot : Fin 32) (heard : List Byte) (s : State) : Result :=
  match s.upOwner slot, upstream heard with
  | some b, .discarded => .next (s.modBay b fun e => { e with discardedFrames := e.discardedFrames + 1 })
  | _, _ => .next s

/-! ## Downstream link slots -/

/-- The base value of a bay's grant: its grant in the grant source (R18). -/
def State.baseGrant (s : State) (b : BayId) : Nat :=
  match s.blc.grantSource with
  | some g => g.grants[b.val]
  | none => 0

/-- The grant a GRANT frame carries (R18). -/
def State.grantFor (s : State) (b : BayId) : Nat :=
  if (s.bay b).link = .online ∧ s.liveIn b .active ∧ (s.bay b).lastStatus.vehicle = .demanding ∧ s.baseGrant b ≠ 0 then
    min (s.baseGrant b) (s.bay b).lastStatus.heldRequest
  else 0

/-- The display code a GRANT frame carries: the first row of R19 whose condition holds. -/
def State.displayFor (s : State) (b : BayId) : DisplayCode :=
  if (s.bay b).link ≠ .online ∨ s.now.isNone then .unavailable
  else if s.reserved b then .reserved
  else if s.liveIn b .pending then .awaitingAuth
  else if s.liveIn b .active ∧ 0 < s.grantFor b then .charging
  else if s.liveIn b .active ∨ s.liveIn b .suspended ∨ s.liveIn b .transferring then .paused
  else if s.ssm.endedLatch[b.val] then .ended
  else .idle

/-- A GRANT frame is sent to a bay and its grant is kept as the grant last sent (R18). -/
def State.sendGrant (b : BayId) (s : State) : State :=
  let g := s.grantFor b
  let kept := s.modBay b fun e => { e with grantLastSent := g }
  { kept with
    lines := { kept.lines with bayLink := some (grantFrame b g (s.displayFor b) s.blc.sweepNumber) } }

/-- GRANT: downstream link slot `slot` begins. A slot that belongs to no bay leaves the line idle (R1). -/
def execGrant (slot : Fin 16) (s : State) : Result :=
  match s.downOwner slot with
  | some b => .next (s.sendGrant b)
  | none => .next s

/-! ## The bay table -/

/-- GET_BAY at its block (R20, R116). -/
def getBay (bay : Byte) (s : State) : Answer :=
  match bayOperand bay with
  | none => .refuse .badArg s
  | some b => .same .ok (.bay (s.bay b) (s.activeMasks b)) s

/-- GET_BAY(bay) (R20). -/
def execGetBay (p : Port) (bay : Byte) (s : State) : Result := serve p (.getBay p bay) s fun _ => getBay bay s

end Sys2Proof.Machine
end

