-- ==== Sys2Proof/Machine/Intervals.lean ====
section
/-! DEFINITION. The Interval Meter: SET_CLOCK, intervals, integration, closing, the pending list, the demand guard and
GET_INTERVAL (R164–R176). -/

namespace Sys2Proof.Machine

/-! ## Six quantities at once -/

/-- Two sixes combined, quantity by quantity. -/
def Six.zip (f : Nat → Nat → Nat) (a b : Six) : Six :=
  ⟨f a.imported b.imported, f a.exported b.exported, f a.solar b.solar, f a.discharge b.discharge, f a.charge b.charge,
    f a.chargers b.chargers⟩

/-- A function of each quantity. -/
def Six.map (f : Nat → Nat) (a : Six) : Six :=
  ⟨f a.imported, f a.exported, f a.solar, f a.discharge, f a.charge, f a.chargers⟩

/-- The sum of two sixes. -/
def Six.add (a b : Six) : Six := a.zip (· + ·) b

/-- A count held in 32 bits (R169); past them the manual states no result (assumption 8). -/
def fit32 (n : Nat) : Nat := if n < 4294967296 then n else Config.count32Past n

/-- A Wh figure held in 64 bits (R169); past them the manual states no result (assumption 8). -/
def fit64 (n : Nat) : Nat := if n < 18446744073709551616 then n else Config.energy64Past n

/-! ## Beginning an interval -/

/-- The end of an interval that begins at a time: the first boundary of a length in seconds strictly after it (R166). -/
def boundaryAfter (seconds : Nat) (t : SiteTime) : SiteTime :=
  t.later (1000 * seconds - t.ms.val % (1000 * seconds))

/-- The interval that begins at a time under a length (R166). -/
def Interval.begun (seconds : Nat) (t : SiteTime) (partialStart : Bool) : Interval :=
  ⟨t, boundaryAfter seconds t, Six.zero, 0, partialStart, false, 0, 0⟩

/-- A new interval begins; the carries are kept (R166). -/
def State.beginInterval (t : SiteTime) (partialStart : Bool) (s : State) : State :=
  { s with ivm := { s.ivm with current := some (Interval.begun s.settings.intervalLength t partialStart) } }

/-! ## Integration -/

/-- Cm: the sum of the last power of every bay whose link state is ONLINE (R44, R167). -/
def State.chargersPower (s : State) : Nat :=
  (allBays.map fun b => if (s.bay b).link = .online then (s.bay b).lastPower else 0).sum

/-- What a measurement set adds to the accumulators, in mJ (R167). -/
def setEnergy (m : MeasurementSet) (chargers : Nat) : Six :=
  ⟨m.grid.toNat * m.duration, (-m.grid).toNat * m.duration, m.solar * m.duration, m.battery.toNat * m.duration,
    (-m.battery).toNat * m.duration, chargers * m.duration⟩

/-- A measurement set is integrated into an interval (R167). -/
def Interval.integrate (m : MeasurementSet) (chargers : Nat) (i : Interval) : Interval :=
  { i with
    acc := i.acc.add (setEnergy m chargers)
    peak := max i.peak m.grid.toNat
    cycles := fit32 (i.cycles + 1)
    lostCycles := if m.meterLost then fit32 (i.lostCycles + 1) else i.lostCycles
    meterLost := i.meterLost || m.meterLost }

/-- The IVM takes a measurement set (R167). -/
def State.integrate (m : MeasurementSet) (s : State) : State :=
  if m.endTime.isSome then
    { s with
      ivm := { s.ivm with
        lastCycle := some m.duration
        current := s.ivm.current.map (·.integrate m s.chargersPower) } }
  else s

/-- MEASUREMENT_SET at the IVM: the oldest set handed to it is taken (R167). With none handed over nothing happens. -/
def execMeasurementSetAtIvm (s : State) : Result :=
  match s.ivm.inbox with
  | [] => .next s
  | m :: rest => .next (({ s with ivm := { s.ivm with inbox := rest } } : State).integrate m)

/-! ## Closing -/

/-- The mJ of a Wh. -/
def whMJ : Nat := 3600000

/-- The record of a closed interval, before a number is assigned (R168, R169). -/
def Interval.close (i : Interval) (carries : Six) (stop : SiteTime) (timeChanged : Bool) : IntervalRecord :=
  { number := 0
    start := i.start
    stop := stop
    wh := (i.acc.add carries).map (· / whMJ)
    peak := i.peak
    cycles := i.cycles
    lostCycles := i.lostCycles
    mergedCount := 0
    timeChanged := timeChanged
    partialStart := i.partialStart
    meterLost := i.meterLost
    merged := false }

/-- A record merged into the second, newer record of the pending list (R170). -/
def IntervalRecord.merge (r new : IntervalRecord) : IntervalRecord :=
  { r with
    stop := new.stop
    wh := r.wh.zip (fun a b => fit64 (a + b)) new.wh
    peak := max r.peak new.peak
    cycles := fit32 (r.cycles + new.cycles)
    lostCycles := fit32 (r.lostCycles + new.lostCycles)
    mergedCount := r.mergedCount + (1 + new.mergedCount)
    timeChanged := r.timeChanged || new.timeChanged
    partialStart := r.partialStart || new.partialStart
    meterLost := r.meterLost || new.meterLost
    merged := true }

/-- The next interval number: 1 follows 2^32 − 1 (R170). -/
def nextIntervalNumber (n : Word32) : Word32 := if n = 0xFFFFFFFF#32 then 1 else n + 1

/-- Writes the pending list. -/
def State.setPendingRecords (l : List IntervalRecord) (s : State) : State :=
  { s with ivm := { s.ivm with pendingRecords := l } }

/-- A record joins the tail of the pending list with the next number, and INTERVAL is handed over (R170, R171). -/
def State.joinRecord (r : IntervalRecord) (s : State) : State :=
  let numbered := { r with number := s.ivm.nextNumber }
  ({ s with
    ivm := { s.ivm with
      pendingRecords := s.ivm.pendingRecords ++ [numbered]
      nextNumber := nextIntervalNumber s.ivm.nextNumber } } : State).notify (.interval numbered)

/-- A record is placed in the pending list (R170). -/
def State.placeRecord (r : IntervalRecord) (s : State) : State :=
  match s.ivm.pendingRecords with
  | first :: second :: rest => s.setPendingRecords (first :: second.merge r :: rest)
  | _ => s.joinRecord r

/-- The number a record takes when it is placed, or that of the record it is merged into (R165, R170). -/
def State.placedNumber (s : State) : Word32 :=
  match s.ivm.pendingRecords with
  | _ :: second :: _ => second.number
  | _ => s.ivm.nextNumber

/-- Steps 1 to 3 of R168. -/
def State.closeInterval (i : Interval) (stop : SiteTime) (timeChanged : Bool) (s : State) : State :=
  ({ s with ivm := { s.ivm with carries := (i.acc.add s.ivm.carries).map (· % whMJ) } } : State).placeRecord
    (i.close s.ivm.carries stop timeChanged)

/-- BOUNDARY_CLOSE: the clock has reached the end of the current interval (R168). With no such end reached nothing
happens. -/
def execBoundaryClose (s : State) : Result :=
  match s.ivm.current, s.now with
  | some i, some now =>
    if now.reaches i.stop then .next ((s.closeInterval i i.stop false).beginInterval i.stop false) else .next s
  | _, _ => .next s

/-! ## The site clock -/

/-- A site-clock time of a request; `none` above 86,399,999 ms of day (R165, R188). -/
def timeOperand (day : Word16) (ms : Word32) : Option SiteTime :=
  (below 86400000 ms.toNat).map fun m => ⟨⟨day.toNat, day.isLt⟩, m⟩

/-- The clock takes a time and an interval begins at it with PARTIAL_START (R165). -/
def State.startClock (t : SiteTime) (s : State) : State :=
  ({ s with ivm := { s.ivm with clock := some t } } : State).beginInterval t true

/-- SET_CLOCK at its block (R165). -/
def setClock (day : Word16) (ms : Word32) (s : State) : Answer :=
  match timeOperand day ms with
  | none => .refuse .badArg s
  | some t =>
    match s.now, s.ivm.current with
    | some now, some i =>
      ⟨.ok, .intervalClosed (some s.placedNumber), (s.closeInterval i now true).startClock t⟩
    | _, _ => ⟨.ok, .intervalClosed none, s.startClock t⟩

/-- SET_CLOCK(day, ms of day) (R165). -/
def execSetClock (p : Port) (day : Word16) (ms : Word32) (s : State) : Result :=
  serve p (.setClock p day ms) s fun _ => setClock day ms s

/-! ## Acknowledging -/

/-- INTERVAL_ACK at its block (R172). -/
def intervalAck (number : Word32) (s : State) : Answer :=
  match s.ivm.pendingRecords with
  | [] => .refuse .notActive s
  | oldest :: rest =>
    if oldest.number ≠ number then
      .same .unknown (.intervalNumbers (s.ivm.pendingRecords.map (·.number))) s
    else ⟨.ok, .oldestInterval rest.head?, s.setPendingRecords rest⟩

/-- INTERVAL_ACK(number) (R172). -/
def execIntervalAck (p : Port) (number : Word32) (s : State) : Result :=
  serve p (.intervalAck p number) s fun _ => intervalAck number s

/-! ## The demand guard -/

/-- The cycle duration the guard uses (R174). -/
def State.guardCycle (s : State) : Nat :=
  match s.ivm.lastCycle with
  | some d => d
  | none => s.settings.periodsPerCycle * s.settings.periodLength

/-- The guard of an interval read at a time, under a target and a cycle duration (R174). -/
def guardOf (target cycle : Nat) (now : SiteTime) (i : Interval) : Nat :=
  min 2000000 ((target * (i.stop.minus i.start).toNat - i.acc.imported) / max cycle (i.stop.minus now).toNat)

/-- The demand guard as it is read; `none` when invalid (R174). -/
def State.guard (s : State) : Option Nat :=
  match s.now, s.ivm.current with
  | some now, some i =>
    if 1 ≤ s.settings.demandTarget then some (guardOf s.settings.demandTarget s.guardCycle now i) else none
  | _, _ => none

/-- The figures of GET_INTERVAL (R175). -/
def State.intervalFigures (s : State) : IntervalFigures where
  clock := s.now
  current := s.ivm.current.map fun i => (i, s.ivm.carries)
  pendingRecords := s.ivm.pendingRecords
  nextNumber := s.ivm.nextNumber
  intervalLength := s.settings.intervalLength
  demandTarget := s.settings.demandTarget
  guard := s.guard

/-- GET_INTERVAL (R175). -/
def execGetInterval (p : Port) (s : State) : Result :=
  serve p (.getInterval p) s fun _ => .same .ok (.interval s.intervalFigures) s

end Sys2Proof.Machine
end

