-- ==== Sys2Proof/Machine/Budget.lean ====
section
/-! DEFINITION. The Allocation Engine's budget: curtailment, the terms of an allocation, shares, alarms, the grant set
and GET_STATUS (R35, R39–R56, R73). -/

namespace Sys2Proof.Machine

/-! ## Curtailment -/

/-- Writes the curtailment overlay. -/
def State.setOverlay (o : Option Overlay) (s : State) : State := { s with ale := { s.ale with overlay := o } }

/-- CURTAIL at its block (R41). -/
def curtail (limit duration : Word32) (s : State) : Answer :=
  if duration = 0 ∨ 86400 < duration.toNat then .refuse .badArg s
  else
    ⟨if 2000000 < limit.toNat then .clamped else .ok, .nothing,
      s.setOverlay (some ⟨min 2000000 limit.toNat, 1000 * duration.toNat⟩)⟩

/-- CURTAIL(limit, duration) (R41). -/
def execCurtail (p : Port) (limit duration : Word32) (s : State) : Result :=
  serve p (.curtail p limit duration) s fun _ => curtail limit duration s

/-- CURTAIL_END at its block (R42). -/
def curtailEnd (s : State) : Answer :=
  if s.ale.overlay.isSome then ⟨.ok, .nothing, s.setOverlay none⟩ else .refuse .notActive s

/-- CURTAIL_END (R42). -/
def execCurtailEnd (p : Port) (s : State) : Result := serve p (.curtailEnd p) s fun _ => curtailEnd s

/-- The overlay's remaining duration has reached 0: the overlay is removed (R42). With no such overlay nothing
happens. -/
def execCurtailmentExpiry (s : State) : Result :=
  match s.ale.overlay with
  | some o => if o.remainingMs = 0 then .next (s.setOverlay none) else .next s
  | none => .next s

/-! ## The terms before admission -/

/-- The lesser of two terms of Glim, the first when they are equal (R40). -/
def lesserLimit (a : Nat × LimitSource) (b : Option (Nat × LimitSource)) : Nat × LimitSource :=
  match b with
  | some b => if b.1 < a.1 then b else a
  | none => a

/-- Glim and its limit source (R40). -/
def State.effectiveLimit (s : State) : Nat × LimitSource :=
  lesserLimit
    (lesserLimit (s.settings.importLimit, .setting) (s.ale.overlay.map fun o => (o.limit, .curtail)))
    (s.guard.map fun g => (g, .guard))

/-- The shop load L (R44). -/
def shopLoadOf (m : MeasurementSet) (chargers : Nat) : Nat :=
  min 2000000 (m.grid + m.solar + m.battery - chargers).toNat

/-- Whether the battery is LOST in a measurement set. -/
def MeasurementSet.batteryLost (m : MeasurementSet) : Bool := m.lost[8]

/-- Bd_max (R46). -/
def State.availableDischarge (s : State) (m : MeasurementSet) : Nat :=
  if !m.batteryLost ∧ s.settings.reserveFloor < m.charge then m.maxDischarge else 0

/-- Bc_max (R46). -/
def State.availableCharge (s : State) (m : MeasurementSet) : Nat :=
  if !m.batteryLost ∧ m.charge < s.settings.chargeStop then m.maxCharge else 0

/-- The terms formed before admission (R40–R47). -/
structure Terms where
  glim : Nat
  source : LimitSource
  chargers : Nat
  shopLoad : Nat
  headroom : Int
  maxDischarge : Nat
  maxCharge : Nat
  demand01 : Nat
  base : Int
  discharge : Nat
  pool01 : Nat
  deriving DecidableEq, Repr

/-- Bd from its availability, D01 and Base (R47). -/
def dischargeOf (available demand : Nat) (base : Int) : Nat := min available (demand - base).toNat

/-- The terms formed before admission; while the meter is lost Bd is 0 and A01 the fallback pool (R53). -/
def State.terms (s : State) (m : MeasurementSet) : Terms :=
  let limit := s.effectiveLimit
  let chargers := s.chargersPower
  let load := shopLoadOf m chargers
  let headroom := (limit.1 : Int) - s.settings.margin - load
  let base := headroom + m.solar
  let available := s.availableDischarge m
  let discharge := if m.meterLost then 0 else dischargeOf available s.demand01 base
  { glim := limit.1
    source := limit.2
    chargers := chargers
    shopLoad := load
    headroom := headroom
    maxDischarge := available
    maxCharge := s.availableCharge m
    demand01 := s.demand01
    base := base
    discharge := discharge
    pool01 := if m.meterLost then s.settings.fallbackPool else (base + discharge).toNat }

/-! ## The walks and fills -/

/-- The outcome of admission and level fill for every class. -/
structure Allotment where
  first : Walk
  granted01 : List Granted
  pool2 : Nat
  second : Walk
  granted2 : List Granted
  deriving DecidableEq, Repr

/-- P01. -/
def Allotment.power01 (a : Allotment) : Nat := powerOf a.granted01

/-- P2. -/
def Allotment.power2 (a : Allotment) : Nat := powerOf a.granted2

/-- Admission and level fill: classes 0 and 1 with A01, then class 2 with A2 (R48, R53, R62, R65). -/
def State.allot (s : State) (m : MeasurementSet) (t : Terms) : Allotment :=
  let first := s.walk01 m.cycle t.pool01
  let granted01 := first.fill01 t.pool01
  let pool2 := if m.meterLost then 0 else m.solar - t.shopLoad - powerOf granted01
  let second := s.walk2 m.cycle pool2
  ⟨first, granted01, pool2, second, second.fill2 pool2⟩

/-! ## The terms after admission -/

/-- Bc (R49). -/
def plannedCharge (m : MeasurementSet) (t : Terms) (a : Allotment) : Nat :=
  if m.meterLost ∨ 0 < t.discharge then 0
  else min t.maxCharge (m.solar - t.shopLoad - a.power01 - a.power2)

/-- The battery setpoint (R49). -/
def setpointOf (m : MeasurementSet) (discharge charge : Nat) : Int :=
  min (max ((discharge : Int) - charge) (-(m.maxCharge : Int))) m.maxDischarge

/-- Xp (R50, R53). -/
def plannedExport (m : MeasurementSet) (t : Terms) (a : Allotment) (charge : Nat) : Nat :=
  if m.meterLost then 0 else m.solar - t.shopLoad - a.power01 - a.power2 - charge

/-- The canopy ceilings of a grant set. -/
structure Ceilings where
  total : Option Nat
  each : Vector (Option Nat) 8
  limited : Bool
  carried : Bool
  deriving DecidableEq, Repr

/-- Ceilings of none. -/
def Ceilings.unlimited : Ceilings := ⟨none, Vector.replicate 8 none, false, false⟩

/-- The ceilings that bring the export down to a limit (R50). -/
def Ceilings.limiting (m : MeasurementSet) (total : Nat) : Ceilings :=
  ⟨some total, Vector.ofFn fun k : Fin 8 => some (min 2000000 (m.canopyMeans[k.val] * total / m.solar)), true, false⟩

/-- The canopy ceilings of a new grant set; while the meter is lost they are those of the current one (R50, R53). -/
def State.ceilings (s : State) (m : MeasurementSet) (planned : Nat) : Ceilings :=
  if m.meterLost then
    match s.ale.current with
    | some g => ⟨none, g.ceilings, g.exportLimited, true⟩
    | none => Ceilings.unlimited
  else
    match s.settings.exportLimit with
    | some limit =>
      if limit < planned then Ceilings.limiting m (m.solar - (planned - limit) + s.settings.probeStep)
      else Ceilings.unlimited
    | none => Ceilings.unlimited

/-- A split of the class 0/1 power by source, in W: S01, B01, G01 (R51). -/
def sourcesOf (solar discharge power01 power2 : Nat) : Shares :=
  let s01 := min (solar - power2) power01
  let b01 := min discharge (power01 - s01)
  ⟨s01, b01, power01 - s01 - b01⟩

/-- The class 0/1 shares of a split (R51). -/
def sharesOf (w : Shares) (power01 : Nat) : Shares :=
  if power01 = 0 then ⟨0, 0, 1000⟩
  else
    ⟨1000 * w.solar / power01, 1000 * w.battery / power01,
      1000 - 1000 * w.solar / power01 - 1000 * w.battery / power01⟩

/-! ## Alarms -/

/-- The import alarm latch after an allocation (R52). -/
def State.importLatchAfter (s : State) (m : MeasurementSet) (t : Terms) : Bool :=
  if m.meterLost then s.ale.importLatch else decide (t.base + t.maxDischarge < 0)

/-- The ALARM notice an allocation raises, if any (R52, R53). -/
def State.alarmOf (s : State) (m : MeasurementSet) (t : Terms) : Option Alarm :=
  if m.meterLost then
    if s.ale.meterLostLatch then none else some (.meterLost m.cycle s.settings.fallbackPool)
  else
    match s.ale.importLatch, s.importLatchAfter m t with
    | false, true => some (.importLimit m.cycle t.glim t.source t.shopLoad (-(t.base + t.maxDischarge)))
    | true, false => some (.importClear m.cycle)
    | true, true => none
    | false, false => none

/-! ## The allocation -/

/-- The grant set an allocation forms (R54). -/
def State.formGrantSet (s : State) (m : MeasurementSet) (t : Terms) (a : Allotment) : GrantSet :=
  let charge := plannedCharge m t a
  let planned := plannedExport m t a charge
  let c := s.ceilings m planned
  let sources := sourcesOf m.solar t.discharge a.power01 a.power2
  { sequence := m.cycle
    grants := grantVector (a.granted01 ++ a.granted2)
    glim := t.glim
    source := t.source
    guard := s.guard
    curtailed := s.ale.overlay.isSome
    shopLoad := t.shopLoad
    chargers := t.chargers
    headroom := t.headroom
    margin := s.settings.margin
    maxDischarge := t.maxDischarge
    maxCharge := t.maxCharge
    demand01 := t.demand01
    discharge := t.discharge
    pool01 := t.pool01
    granted01 := a.power01
    pool2 := a.pool2
    granted2 := a.power2
    charge := charge
    setpoint := setpointOf m t.discharge charge
    exportPlanned := planned
    totalCeiling := c.total
    ceilings := c.each
    solar01 := sources.solar
    battery01 := sources.battery
    grid01 := sources.grid
    shares01 := sharesOf sources a.power01
    shares2 := ⟨1000, 0, 0⟩
    meterLost := m.meterLost
    exportLimited := c.limited
    ceilingsCarried := c.carried
    importLatch := s.importLatchAfter m t
    meterLostLatch := m.meterLost
    held := m.held
    lost := m.lost }

/-- Step 1 of R39, and the latches as they stand after the allocation (R52, R53). -/
def State.install (g : GrantSet) (s : State) : State :=
  { s with
    ale := { s.ale with
      previous := s.ale.current
      current := some g
      importLatch := g.importLatch
      meterLostLatch := g.meterLostLatch } }

/-- Step 4 of R39. -/
def State.raiseAlarm (a : Option Alarm) (s : State) : State :=
  match a with
  | some a => s.notify (.alarm a)
  | none => s

/-- The grant set an allocation forms from a measurement set (R39, R54). -/
def State.newGrantSet (s : State) (m : MeasurementSet) : GrantSet :=
  s.formGrantSet m (s.terms m) (s.allot m (s.terms m))

/-- The shed stack and the unlisted set an allocation leaves (R68). -/
def State.newShedding (s : State) (m : MeasurementSet) : Shedding :=
  let a := s.allot m (s.terms m)
  s.stackUpdate m.cycle (a.first.admitted ++ a.second.admitted) (a.first.shed ++ a.second.shed)

/-- Steps 1 and 2 of R39. -/
def State.installSet (m : MeasurementSet) (s : State) : State :=
  (s.writeShedding (s.newShedding m) (s.newGrantSet m).grants).install (s.newGrantSet m)

/-- The allocation from a measurement set (R39). What it reads is the state as it stands when the set is taken. -/
def State.allocate (m : MeasurementSet) (s : State) : State :=
  (s.installSet m).grantSetEvent.raiseAlarm (s.alarmOf m (s.terms m))

/-- ALLOCATION: the ALE takes the oldest measurement set handed to it (R39). With none handed over nothing happens. -/
def execAllocation (s : State) : Result :=
  match s.ale.inbox with
  | [] => .next s
  | m :: rest => .next (({ s with ale := { s.ale with inbox := rest } } : State).allocate m)

/-! ## Observing the budget -/

/-- Whole seconds of a duration in ms, rounded up (R55). -/
def secondsUp (ms : Nat) : Nat := (ms + 999) / 1000

/-- The settings of the budget settings table (R55). -/
def Settings.budget (t : Settings) : BudgetSettings :=
  ⟨t.importLimit, t.margin, t.reserveFloor, t.chargeStop, t.exportLimit, t.probeStep, t.fallbackPool⟩

/-- A node as the node section gives it (R35). -/
def Node.figures (n : Node) : NodeFigures :=
  ⟨n.standing, n.holdCount, n.mean, n.goodFrames, n.correctedFrames, n.discardedFrames, n.noReplies⟩

/-- The figures of GET_STATUS (R35, R55, R73). -/
def State.statusFigures (s : State) : StatusFigures where
  grantSet := s.ale.current
  overlay := s.ale.overlay.map fun o => (o.limit, secondsUp o.remainingMs)
  importLatch := s.ale.importLatch
  meterLostLatch := s.ale.meterLostLatch
  budget := s.settings.budget
  nodes := Vector.ofFn fun k : NodeId => (s.node k).figures
  batteryCharge := s.clc.battery.charge
  batteryMaxDischarge := s.clc.battery.maxDischarge
  batteryMaxCharge := s.clc.battery.maxCharge
  cycleNumber := s.clc.cycleNumber
  periodIndex := s.clc.periodIndex
  windowFrom := s.clc.windowFrom
  windowTo := s.clc.windowTo
  shedStack := s.ale.shedStack
  unlisted := s.ale.unlisted
  overflowCount := s.ale.overflowCount
  shedStackDepth := s.settings.shedStackDepth
  overflowPolicy := s.settings.overflowPolicy
  shedHold := s.settings.shedHold
  restoreMargin := s.settings.restoreMargin

/-- GET_STATUS (R35, R55, R73). -/
def execGetStatus (p : Port) (s : State) : Result :=
  serve p (.getStatus p) s fun _ => .same .ok (.status s.statusFigures) s

end Sys2Proof.Machine
end

