-- ==== Sys2Proof/Machine/CanopyLine.lean ====
section
/-! DEFINITION. The Canopy Line Controller: polls, replies, the measurement window and cycle ends (R22–R37). -/

namespace Sys2Proof.Machine

/-- Changes the Canopy Line Controller. -/
def State.modClc (f : CanopyLine → CanopyLine) (s : State) : State := { s with clc := f s.clc }

/-! ## Polls -/

/-- The canopy ceilings and the setpoint a POLL carries: those of the ALE's current grant set, or none and 0 (R25). -/
def State.pollTargets (s : State) : Vector (Option Nat) 8 × Int :=
  match s.ale.current with
  | some g => (g.ceilings, g.setpoint)
  | none => (Vector.replicate 8 none, 0)

/-- The index of the period that the next POLL begins (R22). -/
def CanopyLine.nextPeriod (c : CanopyLine) : Nat := if c.polled then c.periodIndex + 1 else c.periodIndex

/-- POLL: a period begins and its POLL is sent (R23, R25). Past the last period of the cycle no period begins. -/
def execPoll (s : State) : Result :=
  let i := s.clc.nextPeriod
  if i < s.clc.periodsTaken then
    let begun := s.modClc fun c => { c with periodIndex := i, polled := true }
    .next { begun with
      lines := { begun.lines with
        canopy := some (pollFrame i s.clc.cycleNumber s.pollTargets.1 s.pollTargets.2) } }
  else .next s

/-! ## Replies -/

/-- A canopy converter's power clamped to 0 – its converter rating (R27). -/
def clampCanopy (rating : Nat) (power : Int) : Int := max 0 (min power rating)

/-- Battery power and net import clamped to −2,000,000 – 2,000,000 (R27). -/
def clampLine (power : Int) : Int := max (-2000000) (min power 2000000)

/-- Whether the period in progress lies within the effective window, ends included (R28). -/
def CanopyLine.inWindow (c : CanopyLine) : Bool := decide (c.windowFrom ≤ c.periodIndex) && decide (c.periodIndex ≤ c.windowTo)

/-- A valid reply raises one of its node's two counters (R26). -/
def State.countReply (k : NodeId) (corrected : Bool) (s : State) : State :=
  s.modNode k fun n =>
    if corrected then { n with correctedFrames := n.correctedFrames + 1 } else { n with goodFrames := n.goodFrames + 1 }

/-- An in-window sample is added to its node's window sum and counted (R28). -/
def State.addSample (k : NodeId) (power : Int) (s : State) : State :=
  s.modNode k fun n => { n with windowSum := n.windowSum + power, windowCount := n.windowCount + 1 }

/-- An in-window battery sample replaces the window values of the three further fields (R27, R28). -/
def State.setBatteryWindow (x : Sample) (s : State) : State :=
  s.modClc fun c =>
    { c with
      battery := { c.battery with
        windowPresent := true
        windowCharge := min 1000 x.charge
        windowMaxDischarge := min 2000000 x.maxDischarge
        windowMaxCharge := min 2000000 x.maxCharge } }

/-- The node table's place of a canopy converter. -/
def canopyNode (k : Fin 8) : NodeId := ⟨k.val, by omega⟩

/-- CANOPY_SAMPLE: a valid reply in a canopy converter's reply position (R26–R28). -/
def execCanopySample (node : Fin 8) (heard : List Byte) (s : State) : Result :=
  match lineReply (canopyNode node) s.clc.periodIndex heard with
  | .valid corrected x =>
    let counted := s.countReply (canopyNode node) corrected
    .next (if s.clc.inWindow then
      counted.addSample (canopyNode node) (clampCanopy s.settings.converterRating[node.val] x.power)
    else counted)
  | _ => .next s

/-- BATTERY_SAMPLE: a valid reply in the battery converter's reply position (R26–R28). -/
def execBatterySample (heard : List Byte) (s : State) : Result :=
  match lineReply 8 s.clc.periodIndex heard with
  | .valid corrected x =>
    let counted := s.countReply 8 corrected
    .next (if s.clc.inWindow then (counted.addSample 8 (clampLine x.power)).setBatteryWindow x else counted)
  | _ => .next s

/-- METER_SAMPLE: a valid reply in the grid meter's reply position (R26–R28). -/
def execMeterSample (heard : List Byte) (s : State) : Result :=
  match lineReply 9 s.clc.periodIndex heard with
  | .valid corrected x =>
    let counted := s.countReply 9 corrected
    .next (if s.clc.inWindow then counted.addSample 9 (clampLine x.power) else counted)
  | _ => .next s

/-- CANOPY_DISCARD: a reply position ends with a frame that is discarded (R26). -/
def execCanopyDiscard (node : NodeId) (heard : List Byte) (s : State) : Result :=
  match lineReply node s.clc.periodIndex heard with
  | .discarded => .next (s.modNode node fun n => { n with discardedFrames := n.discardedFrames + 1 })
  | _ => .next s

/-- NO_REPLY: a reply position ends with no preamble begun in it (R26). -/
def execNoReply (node : NodeId) (heard : List Byte) (s : State) : Result :=
  match lineReply node s.clc.periodIndex heard with
  | .silent => .next (s.modNode node fun n => { n with noReplies := n.noReplies + 1 })
  | _ => .next s

/-! ## Cycle end -/

/-- The close of a node's window: its mean (R30), its standing and its hold count (R31). The counters, the sum and the
count stand. -/
def Node.closeWindow (hold : Nat) (n : Node) : Node :=
  if 1 ≤ n.windowCount then
    { n with mean := n.windowSum.tdiv n.windowCount, standing := .live, holdCount := hold }
  else if 1 ≤ n.holdCount then { n with standing := .held, holdCount := min n.holdCount hold - 1 }
  else { n with standing := .lost }

/-- The close of the battery's window: its window values, when present, are taken into the node table (R30, R37). -/
def BatteryEntry.closeWindow (b : BatteryEntry) : BatteryEntry :=
  if b.windowPresent then
    { b with charge := b.windowCharge, maxDischarge := b.windowMaxDischarge, maxCharge := b.windowMaxCharge }
  else b

/-- Step 1 of R29. -/
def State.closeWindows (s : State) : State :=
  s.modClc fun c =>
    { c with
      nodes := Vector.ofFn fun k : NodeId => c.nodes[k.val].closeWindow s.settings.holdCycles
      battery := c.battery.closeWindow }

/-- A node's mean as the measurement set gives it: 0 when the node is LOST (R32). -/
def Node.given (n : Node) : Int := if n.standing = .lost then 0 else n.mean

/-- A canopy node's figure in the measurement set (R32). Its mean is never negative, since its samples are not. -/
def State.canopyMean (s : State) (k : Fin 8) : Nat := (s.node (canopyNode k)).given.toNat

/-- Step 2 of R29: the measurement set (R32, R33). -/
def State.measurementSet (s : State) : MeasurementSet :=
  let lost8 := (s.node 8).standing = .lost
  { cycle := s.clc.cycleNumber
    duration := s.clc.periodsTaken * s.clc.lengthTaken
    endTime := s.now
    canopyMeans := Vector.ofFn s.canopyMean
    solar := (canopyNodes.map s.canopyMean).sum
    battery := (s.node 8).given
    charge := s.clc.battery.charge
    maxDischarge := if lost8 then 0 else s.clc.battery.maxDischarge
    maxCharge := if lost8 then 0 else s.clc.battery.maxCharge
    grid := (s.node 9).given
    held := Vector.ofFn fun k : NodeId => decide ((s.node k).standing = .held)
    lost := Vector.ofFn fun k : NodeId => decide ((s.node k).standing = .lost)
    meterLost := decide ((s.node 9).standing = .lost) }

/-- Step 3 of R29: one copy goes to the ALE and one to the IVM. -/
def State.handSet (m : MeasurementSet) (s : State) : State :=
  { s with
    ale := { s.ale with inbox := s.ale.inbox ++ [m] }
    ivm := { s.ivm with inbox := s.ivm.inbox ++ [m] } }

/-- Step 4 of R29: the next cycle begins (R22, R28). -/
def State.beginCycle (s : State) : State :=
  s.modClc fun c =>
    { c with
      nodes := Vector.ofFn fun k : NodeId => { c.nodes[k.val] with windowSum := 0, windowCount := 0 }
      battery := { c.battery with windowPresent := false }
      cycleNumber := c.cycleNumber + 1
      periodIndex := 0
      polled := false
      periodsTaken := s.settings.periodsPerCycle
      lengthTaken := s.settings.periodLength
      windowFrom := effectiveStart s.settings
      windowTo := effectiveStop s.settings }

/-- CYCLE_END (R29). -/
def execCycleEnd (s : State) : Result :=
  let closed := s.closeWindows
  .next (closed.handSet closed.measurementSet).beginCycle

end Sys2Proof.Machine
end

