-- ==== Sys2Proof/Machine/PortService.lean ====
section
/-! DEFINITION. The Message Ports: reception, the receive queue, service with its checks, and transmission (R177–R184). -/

namespace Sys2Proof.Machine

/-! ## Reception -/

/-- A message is discarded: the port's error count rises by 1 (R178, R179). -/
def PortContext.countError (c : PortContext) : PortContext := { c with errorCount := c.errorCount + 1 }

/-- The BUSY reply to a request that finds the receive queue full (R179, R183). -/
def PortContext.busyReply (c : PortContext) (q : Request) : Message := c.replyMessage q .busy 4 .nothing

/-- A request arrives at the receive queue (R179). -/
def PortContext.accept (q : Request) (c : PortContext) : PortContext :=
  if c.receiveQueue.length < 4 then { c with receiveQueue := c.receiveQueue ++ [q] } else c.handBusy (c.busyReply q)

/-- What the receiver meets is taken: a discard is counted, and a well-framed message is a request when its flags byte
is 0 and is counted as an error otherwise (R178, R179). -/
def PortContext.receive (x : Reception) (c : PortContext) : PortContext :=
  match x with
  | .discard => c.countError
  | .message m => if m.flags = 0 then c.accept m.request else c.countError

/-- The receiver of a port examines bytes, and what it meets in them is taken in order (R178). -/
def PortContext.take (bytes : List Byte) (c : PortContext) : PortContext :=
  let met := examine c.receiver bytes
  met.1.foldl (fun c x => c.receive x) { c with receiver := met.2 }

/-- REQUEST_ARRIVAL: bytes received on a port (R178, R179). -/
def execRequestArrival (p : Port) (bytes : List Byte) (s : State) : Result := .next (s.modPort p (·.take bytes))

/-- MESSAGE_DISCARD: bytes received on a port (R178). What the bytes complete is decided by the receiver alone, so bytes
that complete a request are taken as one (assumption 6). -/
def execMessageDiscard (p : Port) (bytes : List Byte) (s : State) : Result := .next (s.modPort p (·.take bytes))

/-- More than 20 ms pass within a message: it is discarded and hunting resumes (R178). -/
def PortContext.timeOut (c : PortContext) : PortContext :=
  match c.receiver with
  | .hunting => c
  | .inMessage _ => { c.countError with receiver := .hunting }

/-- INTER_BYTE_TIMEOUT: more than 20 ms pass after the last byte, and the byte that ends the gap is examined as a
possible start (R178). -/
def execInterByteTimeout (p : Port) (next : Byte) (s : State) : Result :=
  .next (s.modPort p fun c => c.timeOut.take [next])

/-! ## Service -/

/-- The effective level of a request with this role: the greater of the port ceiling and the role (R182). -/
def effectiveLevel (ceiling : Nat) (role : Byte) : Nat := max ceiling role.toNat

/-- The outcome of the checks of R181. -/
inductive Check where
  | refused (code : ResultCode)
  | handed (level : Nat)
  deriving DecidableEq, Repr

/-- The checks of R181 on a request, in order. -/
def PortContext.check (ceiling : Nat) (q : Request) (c : PortContext) : Check :=
  if 11 ≤ c.transmitQueue.length then .refused .noRoom
  else if 2 < q.role.toNat then .refused .badArg
  else
    match requestKind q.kind with
    | none => .refused .unknownKind
    | some k =>
      if (requestRow k).level < effectiveLevel ceiling q.role then .refused .denied
      else if q.body.length < (requestRow k).least ∨ (requestRow k).greatest < q.body.length then
        .refused .badLength
      else .handed (effectiveLevel ceiling q.role)

/-- The oldest request of a port enters service: it is answered when a check fails and stands at its owning block
otherwise (R180, R181). A reply waits while the transmit queue holds 16 messages (assumption 7). -/
def PortContext.startService (ceiling : Nat) (c : PortContext) : PortContext :=
  match c.service, c.receiveQueue with
  | .unchecked, q :: _ =>
    if 16 ≤ c.transmitQueue.length then c
    else
      match c.check ceiling q with
      | .refused code => c.answer code .nothing
      | .handed level => { c with service := .handed level }
  | _, _ => c

/-- SERVICE_START (R180–R182). -/
def execServiceStart (p : Port) (s : State) : Result :=
  .next (s.modPort p (·.startService (s.settings.ceiling p)))

/-! ## Transmission -/

/-- The sending of the oldest message of a transmit queue begins: it takes the DROPPED flag when the drop mark is set,
and the mark is cleared (R184). -/
def PortContext.beginSending (c : PortContext) : PortContext :=
  match c.transmitQueue with
  | [] => c
  | m :: rest => { c with transmitQueue := { m with droppedFlag := c.dropMark } :: rest, dropMark := false }

/-- The oldest message has been sent whole: it leaves the queue and the next begins (R184). -/
def PortContext.completeSending (c : PortContext) : PortContext :=
  match c.transmitQueue with
  | [] => c
  | m :: rest => ({ c with transmitQueue := rest, lastSent := some m } : PortContext).beginSending

/-- TRANSMIT_COMPLETE (R184). -/
def execTransmitComplete (p : Port) (s : State) : Result := .next (s.modPort p (·.completeSending))

end Sys2Proof.Machine
end

