-- ==== Sys2Proof/Machine/StartUp.lean ====
section
/-! DEFINITION. The three resets and start-up (R195–R198). -/

namespace Sys2Proof.Machine

/-- The part as start-up hands it to its first sweep (R8, R21, R36, R56, R76, R100, R134, R163, R176, R177,
R195–R198): every block in its reset state, the working set loaded, START handed to Port A and the first cycle begun.
The nonvolatile memory keeps what it holds. -/
def readyToStart (cause : ResetCause) (image : StoredImage) (waiting : List Instr) : State :=
  let t := image.load
  { blc :=
      { bays := Vector.ofFn fun b : BayId => Bay.fresh (if t.enabled[b.val] then .scheduledWait else .absent)
        staged := Vector.replicate 16 ⟨0, 0⟩
        pendingCopy := none
        active := Vector.ofFn fun b : BayId => expandMasks t.enabled[b.val] b ⟨0, 0⟩
        sweepNumber := 0
        sweepBegun := false
        sweepPeriodTaken := t.sweepPeriod
        grantSource := none
        heard := Vector.replicate 16 false }
    clc :=
      { nodes := Vector.replicate 10 Node.fresh
        battery := BatteryEntry.fresh
        cycleNumber := 0
        periodIndex := 0
        polled := false
        periodsTaken := t.periodsPerCycle
        lengthTaken := t.periodLength
        windowFrom := effectiveStart t
        windowTo := effectiveStop t }
    ale := Allocator.fresh
    ssm := Sessions.fresh
    tfs := Tariffs.fresh
    rcq := ReceiptQueue.fresh
    ivm := IntervalMeter.fresh
    mpt :=
      { portA := PortContext.fresh.handNotice ⟨0, 0, 0x40, false, .notice none (.start cause (!image.valid))⟩
        portB := PortContext.fresh }
    sst := ⟨t, image, .idle⟩
    lines := ⟨none, none⟩
    pending := waiting }

/-- The part at the end of the start-up that follows a reset: the last thing start-up does is to begin the first sweep
(R198). It is the sweep start of R2, with its two exceptions for the first one: no sweep has ended, and the sweep number
stays 0. -/
def startUp (cause : ResetCause) (image : StoredImage) (waiting : List Instr) : State :=
  (readyToStart cause image waiting).sweepStart

/-- POWER_ON (R197). -/
def execPowerOn (s : State) : Result := .next (startUp .power s.sst.image s.pending)

/-- RESET_PIN (R197). -/
def execResetPin (s : State) : Result := .next (startUp .pin s.sst.image s.pending)

/-- RESTART: while the save state is SAVING it is answered BUSY, and otherwise it resets the part and no reply is sent
(R195, R197). -/
def execRestart (p : Port) (s : State) : Result :=
  match s.takenLevel p (.restart p) with
  | some _ =>
    .next (if s.saving then (Answer.refuse .busy s).send p else startUp .restart s.sst.image s.pending)
  | none => .next s

end Sys2Proof.Machine
end

