-- ==== Sys2Proof/Machine/Dispatch.lean ====
section
/-! DEFINITION. The meaning of every command: one arm for each constructor of `Instr`. -/

namespace Sys2Proof.Machine

/-- A command's effect on everything but the queue of waiting commands. -/
def exec (i : Instr) (s : State) : Host.Outcome State Fault Refusal :=
  match i with
  | .getStatus p => Sys2Proof.Machine.execGetStatus p s
  | .getBay p bay => Sys2Proof.Machine.execGetBay p bay s
  | .getSession p record => Sys2Proof.Machine.execGetSession p record s
  | .getPlan p plan => Sys2Proof.Machine.execGetPlan p plan s
  | .getSchedule p => Sys2Proof.Machine.execGetSchedule p s
  | .getInterval p => Sys2Proof.Machine.execGetInterval p s
  | .authorize p bay requestId plan cls capPresence energyCap costCap => Sys2Proof.Machine.execAuthorize p bay requestId plan cls capPresence energyCap costCap s
  | .tillVoucher p bay plan cls capPresence energyCap costCap => Sys2Proof.Machine.execTillVoucher p bay plan cls capPresence energyCap costCap s
  | .deny p bay requestId => Sys2Proof.Machine.execDeny p bay requestId s
  | .stopSession p record => Sys2Proof.Machine.execStopSession p record s
  | .setClass p record cls => Sys2Proof.Machine.execSetClass p record cls s
  | .transfer p record target => Sys2Proof.Machine.execTransfer p record target s
  | .cancelTransfer p record => Sys2Proof.Machine.execCancelTransfer p record s
  | .receiptAck p number => Sys2Proof.Machine.execReceiptAck p number s
  | .receiptGet p number => Sys2Proof.Machine.execReceiptGet p number s
  | .setReceiptBase p number => Sys2Proof.Machine.execSetReceiptBase p number s
  | .pageOpen p label useLevel idleRate idleGrace capPresence idleCap => Sys2Proof.Machine.execPageOpen p label useLevel idleRate idleGrace capPresence idleCap s
  | .pageWrite p first count entries => Sys2Proof.Machine.execPageWrite p first count entries s
  | .pagePublish p plans useLevel => Sys2Proof.Machine.execPagePublish p plans useLevel s
  | .pageDiscard p => Sys2Proof.Machine.execPageDiscard p s
  | .planClear p plan => Sys2Proof.Machine.execPlanClear p plan s
  | .stageSlots p bay down up => Sys2Proof.Machine.execStageSlots p bay down up s
  | .commitSchedule p => Sys2Proof.Machine.execCommitSchedule p s
  | .curtail p limit duration => Sys2Proof.Machine.execCurtail p limit duration s
  | .curtailEnd p => Sys2Proof.Machine.execCurtailEnd p s
  | .setClock p day ms => Sys2Proof.Machine.execSetClock p day ms s
  | .intervalAck p number => Sys2Proof.Machine.execIntervalAck p number s
  | .setSetting p id value => Sys2Proof.Machine.execSetSetting p id value s
  | .saveSettings p => Sys2Proof.Machine.execSaveSettings p s
  | .restart p => Sys2Proof.Machine.execRestart p s
  | .saveComplete => Sys2Proof.Machine.execSaveComplete s
  | .powerOn => Sys2Proof.Machine.execPowerOn s
  | .resetPin => Sys2Proof.Machine.execResetPin s
  | .requestArrival p bytes => Sys2Proof.Machine.execRequestArrival p bytes s
  | .messageDiscard p bytes => Sys2Proof.Machine.execMessageDiscard p bytes s
  | .interByteTimeout p next => Sys2Proof.Machine.execInterByteTimeout p next s
  | .serviceStart p => Sys2Proof.Machine.execServiceStart p s
  | .transmitComplete p => Sys2Proof.Machine.execTransmitComplete p s
  | .sweepStart => Sys2Proof.Machine.execSweepStart s
  | .grant slot => Sys2Proof.Machine.execGrant slot s
  | .status slot heard => Sys2Proof.Machine.execStatus slot heard s
  | .meter slot heard => Sys2Proof.Machine.execMeter slot heard s
  | .discardedFrame slot heard => Sys2Proof.Machine.execDiscardedFrame slot heard s
  | .authTimeout record => Sys2Proof.Machine.execAuthTimeout record s
  | .resumeDeadlineExpiry record => Sys2Proof.Machine.execResumeDeadlineExpiry record s
  | .transferTimeout record => Sys2Proof.Machine.execTransferTimeout record s
  | .curtailmentExpiry => Sys2Proof.Machine.execCurtailmentExpiry s
  | .poll => Sys2Proof.Machine.execPoll s
  | .canopySample node heard => Sys2Proof.Machine.execCanopySample node heard s
  | .batterySample heard => Sys2Proof.Machine.execBatterySample heard s
  | .meterSample heard => Sys2Proof.Machine.execMeterSample heard s
  | .canopyDiscard node heard => Sys2Proof.Machine.execCanopyDiscard node heard s
  | .noReply node heard => Sys2Proof.Machine.execNoReply node heard s
  | .cycleEnd => Sys2Proof.Machine.execCycleEnd s
  | .allocation => Sys2Proof.Machine.execAllocation s
  | .measurementSetAtIvm => Sys2Proof.Machine.execMeasurementSetAtIvm s
  | .boundaryClose => Sys2Proof.Machine.execBoundaryClose s

end Sys2Proof.Machine
end

