-- ==== Sys2Proof/Machine/Step.lean ====
section
/-! DEFINITION. The step of the CT816: the oldest waiting command is taken, and with none waiting a millisecond of the
part's crystal passes. -/

namespace Sys2Proof.Machine

/-- One step. The command at the front of the queue is taken and carried out on the state with the queue's rest. On an
empty queue 1 ms passes on the crystal, which moves the site clock and the overlay's remaining duration and nothing
else (DESIGN CHOICE, assumption 1). -/
def step (s : State) : Host.Outcome State Fault Refusal :=
  match s.pending with
  | [] => .next (s.advance 1)
  | c :: rest => exec c { s with pending := rest }

/-- The state with the command that a word spells put at the front of its queue; unchanged where the word spells none,
which is every word, since the table gives no row bits (assumption 2). -/
def State.withFetchWord (s : State) (nbits w : Nat) : State :=
  match decodeTableWord nbits w with
  | some c => { s with pending := c :: s.pending }
  | none => s

end Sys2Proof.Machine
end

