-- ==== Sys2Proof/Safety.lean ====
section
/-! DEFINITION. What a sound state of the CT816 is, in the terms the statements use: bounds of its queues, link states
that agree with the schedule, energy that balances, and level 0 within reach; and what a chain is, laid from its root to
its head. -/

namespace Sys2Proof.Machine

/-! ## Queues -/

/-- A port context whose queues keep their bounds (R177, R184). While a request stands at its owning block, the
transmit queue still has room for its reply. -/
def PortContext.Sound (c : PortContext) : Prop :=
  c.receiveQueue.length ≤ 4 ∧ c.transmitQueue.length ≤ 16 ∧
    (c.service ≠ .unchecked → c.receiveQueue ≠ [] ∧ c.transmitQueue.length ≤ 14)

/-- Both port contexts keep their bounds. -/
def State.PortsSound (s : State) : Prop := s.mpt.portA.Sound ∧ s.mpt.portB.Sound

/-- The receipt queue and the pending list keep their bounds and no number is 0 (R148, R149, R169, R170). -/
def State.RecordsSound (s : State) : Prop :=
  s.rcq.entries.length ≤ 8 ∧ s.rcq.nextNumber ≠ 0 ∧ s.ivm.pendingRecords.length ≤ 2 ∧ s.ivm.nextNumber ≠ 0

/-- A condition on each of six quantities. -/
def Six.All (q : Nat → Prop) (x : Six) : Prop :=
  q x.imported ∧ q x.exported ∧ q x.solar ∧ q x.discharge ∧ q x.charge ∧ q x.chargers

/-- Less than one Wh of each interval quantity is held back (R168). -/
def State.CarriesSound (s : State) : Prop := s.ivm.carries.All (· < 3600000)

/-! ## Messages -/

/-- The other port. -/
def otherPort : Port → Port
  | .a => .b
  | .b => .a

/-- The youngest message of a port's transmit queue is this reply. -/
def State.LastReply (s : State) (p : Port) (r : Reply) : Prop :=
  ∃ m, (s.port p).transmitQueue.getLast? = some m ∧ m.body = .reply r

/-- Two states that agree on everything but the context of one port. -/
def State.SameButPort (p : Port) (s t : State) : Prop :=
  { t with mpt := s.mpt } = s ∧ t.port (otherPort p) = s.port (otherPort p)

/-- The bytes of a field: `width` of them from an offset on. -/
def fieldAt (offset width : Nat) (bytes : List Byte) : List Byte := (bytes.drop offset).take width

/-! ## Links -/

/-- A bay's link state agrees with the schedule: an unscheduled bay is ABSENT and a scheduled one is not (R6, R8, R13). -/
def State.LinksSound (s : State) : Prop := ∀ b : BayId, (s.bay b).link = .absent ↔ s.scheduled b = false

/-- A bay owns a downstream link slot of the active schedule, and no other bay does (R1, R5). -/
def State.OwnsDown (s : State) (slot : Fin 16) (b : BayId) : Prop :=
  (s.activeMasks b).down.getLsbD slot.val = true ∧ ∀ c : BayId, c ≠ b → (s.activeMasks c).down.getLsbD slot.val = false

/-- A bay owns an upstream link slot of the active schedule, and no other bay does (R1, R5). -/
def State.OwnsUp (s : State) (slot : Fin 32) (b : BayId) : Prop :=
  (s.activeMasks b).up.getLsbD slot.val = true ∧ ∀ c : BayId, c ≠ b → (s.activeMasks c).up.getLsbD slot.val = false

/-- A bay holds a link slot of one direction in a copy of the schedule (R5). -/
def Holds (copy : Vector Masks 16) (downstream : Bool) (slot : Nat) (b : BayId) : Prop :=
  (if downstream then copy[b.val].down.getLsbD slot else copy[b.val].up.getLsbD slot) = true

/-- No link slot of one direction below `slot` is held by two bays (R5). -/
def NoClashBelow (copy : Vector Masks 16) (downstream : Bool) (slot : Nat) : Prop :=
  ∀ n b c, n < slot → Holds copy downstream n b → Holds copy downstream n c → b = c

/-- The lowest clashing link slot of one direction, with the two lowest-numbered bays that hold it (R5). -/
def LowestClash (copy : Vector Masks 16) (downstream : Bool) (slot : Nat) (first second : BayId) : Prop :=
  first < second ∧ Holds copy downstream slot first ∧ Holds copy downstream slot second ∧
    (∀ b, Holds copy downstream slot b → b = first ∨ second ≤ b) ∧ NoClashBelow copy downstream slot

/-! ## Chains -/

/-- `members` is a chain in chain order: its root first, each later member linked back to the one before it, its head last
(R101). -/
def State.IsChain (s : State) (members : List RecordId) (head : RecordId) : Prop :=
  members.length ≤ 32 ∧ members.getLast? = some head ∧
    (∀ root, members.head? = some root → (s.record root).backLink = none) ∧
    ∀ (i : Nat) (a b : RecordId), members[i]? = some a → members[i + 1]? = some b → (s.record b).backLink = some a

/-- A chain has reached one of its head's caps: the energy cap by its metered Wh, or the cost cap by its running cost
estimate (R91). -/
def State.AtCap (s : State) (head : RecordId) : Prop :=
  (∃ cap, (s.record head).energyCap = some cap ∧ cap ≤ s.chainMetered head) ∨
    ∃ cap, (s.record head).costCap = some cap ∧ cap ≤ s.estimate head

/-- A record as it stands once a newer one continues its chain (R106, R111). -/
def Record.linked (g : Record) : Record :=
  { g with
    state := .linked
    transferDeadline := none
    transferTarget := none
    resumeDeadline := none
    suspension := none }

/-- A bay with its ended-latch, its no-context mark and its foreign-vehicle mark cleared (R79). -/
def State.unmarked (b : BayId) (s : State) : State :=
  { s with
    ssm := { s.ssm with
      endedLatch := put s.ssm.endedLatch b false, noContextMark := put s.ssm.noContextMark b false }
    blc := { s.blc with bays := put s.blc.bays b { s.bay b with foreignMark := false } } }

/-- A pin more on a page, when a record pins one (R129). -/
def State.pinned (pg : Option PageId) (s : State) (x : PageId) : Page :=
  if pg = some x then { s.page x with pins := (s.page x).pins + 1 } else s.page x

/-! ## Energy -/

/-- The mWh of a segment list in all. -/
def segmentsTotal (l : List Segment) : Nat := (l.map Segment.total).sum

/-- A record's segments hold 1000 mWh for each metered Wh (R139). -/
def Record.Balanced (r : Record) : Prop := segmentsTotal r.segments = 1000 * r.metered

/-- A permille split adds up (R51). -/
def Shares.Whole (x : Shares) : Prop := x.solar + x.battery + x.grid = 1000

/-- Every record balances, and the shares that deltas are split by add up (R51, R139). -/
def State.EnergySound (s : State) : Prop :=
  (∀ r : RecordId, (s.record r).Balanced) ∧
    (∀ g : GrantSet, s.ale.current = some g → g.shares01.Whole ∧ g.shares2.Whole)

/-! ## Intervals -/

/-- The six interval quantities (R167). -/
def sixQuantities : List (Six → Nat) :=
  [Six.imported, Six.exported, Six.solar, Six.discharge, Six.charge, Six.chargers]

/-- What a close makes of an interval: a record of its whole Wh and six carries of less than one Wh, with no mJ lost, the
record numbered and announced when the pending list has room, and merged into the second record when it has none
(R168–R171, R173). A merged Wh figure that would pass 64 bits and a merged count that would pass 32 are left open
(assumption 8). -/
def State.ClosedInto (s : State) (i : Interval) (stop : SiteTime) (changed : Bool) (t : State) : Prop :=
  ∃ r : IntervalRecord,
    (∀ q ∈ sixQuantities,
      3600000 * q r.wh + q t.ivm.carries = q i.acc + q s.ivm.carries ∧ q t.ivm.carries < 3600000) ∧
    r = { r with
      start := i.start
      stop := stop
      peak := i.peak
      cycles := i.cycles
      lostCycles := i.lostCycles
      mergedCount := 0
      timeChanged := changed
      partialStart := i.partialStart
      meterLost := i.meterLost
      merged := false } ∧
    (s.ivm.pendingRecords.length ≤ 1 →
      r.number = s.ivm.nextNumber ∧ t.ivm.pendingRecords = s.ivm.pendingRecords ++ [r] ∧
      t.ivm.nextNumber = (if s.ivm.nextNumber = 0xFFFFFFFF then 1 else s.ivm.nextNumber + 1) ∧
      t.mpt = (s.notify (.interval r)).mpt) ∧
    (∀ first second, s.ivm.pendingRecords = [first, second] →
      ∃ m : IntervalRecord,
        t.ivm.pendingRecords = [first, m] ∧ t.ivm.nextNumber = s.ivm.nextNumber ∧ t.mpt = s.mpt ∧
        (∀ q ∈ sixQuantities, q second.wh + q r.wh < 2 ^ 64 → q m.wh = q second.wh + q r.wh) ∧
        (second.cycles + i.cycles < 2 ^ 32 → m.cycles = second.cycles + i.cycles) ∧
        (second.lostCycles + i.lostCycles < 2 ^ 32 → m.lostCycles = second.lostCycles + i.lostCycles) ∧
        m = { m with
          number := second.number
          start := second.start
          stop := stop
          peak := max second.peak r.peak
          mergedCount := second.mergedCount + 1
          timeChanged := second.timeChanged || changed
          partialStart := second.partialStart || i.partialStart
          meterLost := second.meterLost || i.meterLost
          merged := true })

/-! ## Access -/

/-- Level 0 is reachable from one port (R182). -/
def Settings.LevelZero (t : Settings) : Prop := t.ceilingA = 0 ∨ t.ceilingB = 0

/-- Level 0 is reachable under the working set, under a valid stored image and under the copy a save holds (R182, R194,
R196). -/
def State.LevelZeroSound (s : State) : Prop :=
  s.sst.working.LevelZero ∧ (s.sst.image.valid = true → s.sst.image.contents.LevelZero) ∧
    ∀ copy p, s.sst.save = .saving copy p → copy.LevelZero

end Sys2Proof.Machine
end

