-- ==== Sys2Proof/WellFormed.lean ====
section
/-! DEFINITION. Which terms of `Instr` a command can be. The operands' types carry most of it (a byte is a byte, a link
slot exists, a record exists); two forms remain that no request body spells. -/

namespace Sys2Proof

/-- An AUTHORIZE names a record: its request id is not 0, which is the till voucher's (R83, R84). -/
def Instr.requestIdOk : Instr → Bool
  | .authorize _ _ requestId _ _ _ _ _ => requestId != 0
  | _ => true

/-- A PAGE_WRITE body is 8–74 bytes, so 6–72 bytes follow its first slot and count (R181). -/
def Instr.entriesOk : Instr → Bool
  | .pageWrite _ _ _ entries => 6 ≤ entries.length && entries.length ≤ 72
  | _ => true

/-- A command that can occur. -/
def Instr.wellFormed (i : Instr) : Bool := i.requestIdOk && i.entriesOk

end Sys2Proof
end

