-- ==== Sys2Proof/Certificates/Slice0/Obligations.lean ====
section
/-! DEFINITION. The statements about the CT816, one definition for each. -/

open Sys2Proof Sys2Proof.Machine

/-! ## The machine -/

/-- A step takes the command at the front of the queue: it is that command's effect on the state with the queue's
rest. -/
def Obligations.StepTakesFrontCommand : Prop :=
  ∀ (c : Instr) (rest : List Instr) (s : State), s.pending = c :: rest → step s = exec c { s with pending := rest }

/-- With no command waiting, `k` steps pass `k` ms on the crystal and do nothing else (the tick is the model's choice,
assumption 1). A later time lies its duration further on the span of 65,536 days, and for a duration below half the
span the later time has reached the earlier one and not the other way round, across the wrap of the day number too
(R164). -/
def Obligations.TimePassesOnTheSpan : Prop :=
  (∀ (k : Nat) (s : State), s.pending = [] → Host.Core.run Sys2Proof.core k s = .next (s.advance k)) ∧
  (∀ (t : SiteTime) (ms : Nat),
    (t.later ms).position = (t.position + ms) % clockSpan ∧
    (0 < ms → 2 * ms < clockSpan → (t.later ms).reaches t = true ∧ t.reaches (t.later ms) = false ∧
      (t.later ms).minus t = ms ∧ t.minus (t.later ms) = -(ms : Int)))

/-- Every command in every state ends in a next state, and no command touches the queue of waiting commands. It rests on
the model's choices: a reset keeps the queue (assumption 2), and a request that is not in service (assumption 5) and an
event whose condition does not hold (assumption 11) answer the state as it is. -/
def Obligations.EveryCommandAnswers : Prop :=
  ∀ (c : Instr) (s : State), ∃ t, exec c s = .next t ∧ t.pending = s.pending

/-! ## Invariants -/

/-- Every step keeps the bounds of both ports' queues: 0–4 requests and 0–16 messages (R177, R184). -/
def Obligations.PortQueuesStayBounded : Prop :=
  ∀ s t : State, s.PortsSound → step s = .next t → t.PortsSound

/-- Every step keeps the receipt queue at 8 entries or fewer, the pending list at 2 or fewer, no receipt or interval
number at 0, and each carry below one Wh (R148, R149, R168, R170). -/
def Obligations.RecordsStayBounded : Prop :=
  ∀ s t : State, s.RecordsSound ∧ s.CarriesSound → step s = .next t → t.RecordsSound ∧ t.CarriesSound

/-- Every step keeps each bay's link state in agreement with the schedule (R6, R13, R14). -/
def Obligations.LinkStatesFollowTheSchedule : Prop :=
  ∀ s t : State, s.LinksSound → step s = .next t → t.LinksSound

/-- Every step keeps each record's segments at 1000 mWh for each metered Wh, whatever is attributed, rolled over, split
or freed (R51, R139). -/
def Obligations.EnergyStaysBalanced : Prop :=
  ∀ s t : State, s.EnergySound → step s = .next t → t.EnergySound

/-- Every step keeps level 0 reachable from one port, across saves and resets too (R182, R194, R196). -/
def Obligations.LevelZeroStaysReachable : Prop :=
  ∀ s t : State, s.LevelZeroSound → step s = .next t → t.LevelZeroSound

/-- The reset state meets each of the five invariants. -/
def Obligations.ResetIsSound : Prop :=
  State.reset.PortsSound ∧ State.reset.RecordsSound ∧ State.reset.CarriesSound ∧ State.reset.LinksSound ∧
    State.reset.EnergySound ∧ State.reset.LevelZeroSound

/-! ## Requests -/

/-- The bytes that spell a well-formed request are read back as that request (R181, R188, R190). -/
def Obligations.RequestBodiesRoundTrip : Prop :=
  ∀ (c : Instr) (p : Port) (k : RequestKind) (body : List Byte), c.wellFormed = true →
    requestBytes c = some (p, k, body) →
    requestOf p (kindByte k) body = some c ∧ (requestRow k).least ≤ body.length ∧
      body.length ≤ (requestRow k).greatest

/-- A reply with a code other than OK or CLAMPED leaves the part's state as it was before the request, apart from the
port context of its own port (R185). -/
def Obligations.RefusalsLeaveTheState : Prop :=
  ∀ (c : Instr) (p : Port) (k : RequestKind) (body : List Byte) (e : Nat) (s t : State) (r : Reply),
    requestBytes c = some (p, k, body) → s.takenLevel p c = some e → exec c s = .next t →
    (t.port p).service = .unchecked → t.LastReply p r → r.code.carriedOut = false → s.SameButPort p t

/-- Each of the six read requests is answered OK with its figures and changes nothing but its own port's context; a bay
above 15, a record above 31 and a plan above 15 give BAD_ARG (R7, R20, R35, R55, R73, R99, R116, R133, R146, R175). The
figures are what the rules list: of GET_STATUS the current grant set, the overlay with its remaining seconds rounded up,
the latches, the settings, the nodes and the shed section; of GET_PLAN the entry, its page, the pool with the number of
entries that name each page, and the staging state; of GET_INTERVAL the meter's fields. GET_SESSION gives the figures of
the record's chain, stated for a chain in which no record links back to the head and no two to the same member; that it
gives them for a RECEIPTED chain, with the head's depth, is the model's reading (assumption 24). -/
def Obligations.ReadRequestsAnswer : Prop :=
  ∀ (p : Port) (e : Nat) (s : State),
    (s.takenLevel p (.getStatus p) = some e →
      ∃ f : StatusFigures,
        exec (.getStatus p) s = .next ((Answer.same .ok (.status f) s).send p) ∧
        f.grantSet = s.ale.current ∧ (s.ale.overlay = none → f.overlay = none) ∧
        (∀ o, s.ale.overlay = some o →
          ∃ seconds, f.overlay = some (o.limit, seconds) ∧ o.remainingMs ≤ 1000 * seconds ∧
            1000 * seconds < o.remainingMs + 1000) ∧
        f.importLatch = s.ale.importLatch ∧ f.meterLostLatch = s.ale.meterLostLatch ∧
        f.budget = ⟨s.settings.importLimit, s.settings.margin, s.settings.reserveFloor, s.settings.chargeStop,
          s.settings.exportLimit, s.settings.probeStep, s.settings.fallbackPool⟩ ∧
        (∀ k : NodeId, f.nodes[k.val] =
          ⟨(s.node k).standing, (s.node k).holdCount, (s.node k).mean, (s.node k).goodFrames,
            (s.node k).correctedFrames, (s.node k).discardedFrames, (s.node k).noReplies⟩) ∧
        f.batteryCharge = s.clc.battery.charge ∧ f.batteryMaxDischarge = s.clc.battery.maxDischarge ∧
        f.batteryMaxCharge = s.clc.battery.maxCharge ∧ f.cycleNumber = s.clc.cycleNumber ∧
        f.periodIndex = s.clc.periodIndex ∧ f.windowFrom = s.clc.windowFrom ∧ f.windowTo = s.clc.windowTo ∧
        f.shedStack = s.ale.shedStack ∧ f.unlisted = s.ale.unlisted ∧ f.overflowCount = s.ale.overflowCount ∧
        f.shedStackDepth = s.settings.shedStackDepth ∧ f.overflowPolicy = s.settings.overflowPolicy ∧
        f.shedHold = s.settings.shedHold ∧ f.restoreMargin = s.settings.restoreMargin) ∧
    (s.takenLevel p (.getSchedule p) = some e →
      exec (.getSchedule p) s =
        .next ((Answer.same .ok (.schedule s.blc.staged s.blc.active s.blc.pendingCopy) s).send p)) ∧
    (s.takenLevel p (.getInterval p) = some e →
      exec (.getInterval p) s = .next ((Answer.same .ok (.interval
        { clock := s.now
          current := s.ivm.current.map fun i => (i, s.ivm.carries)
          pendingRecords := s.ivm.pendingRecords
          nextNumber := s.ivm.nextNumber
          intervalLength := s.settings.intervalLength
          demandTarget := s.settings.demandTarget
          guard := s.guard }) s).send p)) ∧
    (∀ x : Byte, s.takenLevel p (.getBay p x) = some e →
      (∀ b : BayId, x.toNat = b.val →
        exec (.getBay p x) s = .next ((Answer.same .ok (.bay (s.bay b) (s.activeMasks b)) s).send p)) ∧
      (15 < x.toNat → exec (.getBay p x) s = .next ((Answer.refuse .badArg s).send p))) ∧
    (∀ x : Byte, s.takenLevel p (.getSession p x) = some e →
      (∀ r : RecordId, x.toNat = r.val → (s.record r).state = .free →
        exec (.getSession p x) s = .next ((Answer.same .ok (.session .freeRecord) s).send p)) ∧
      (∀ r : RecordId, x.toNat = r.val → (s.record r).state ≠ .free →
        ∃ f : ChainFigures,
          exec (.getSession p x) s = .next ((Answer.same .ok (.session (.record (s.record r)
            ((s.record r).segments.map Segment.cost) f)) s).send p) ∧
          ∀ (members : List RecordId) (root head : RecordId), s.IsChain members head → members.head? = some root →
            r ∈ members → (∀ q, (s.record q).backLink ≠ some head) →
            (∀ a b c, (s.record a).backLink = some c → (s.record b).backLink = some c → a = b) →
            f.head = head ∧ f.root = root ∧ f.depth = (s.record head).depth ∧
            f.metered = (members.map fun q => (s.record q).metered).sum ∧
            f.idleMs = (members.map fun q => (s.record q).idleMs).sum ∧ f.idleSeconds = f.idleMs / 1000 ∧
            (∀ pg, (s.record root).page = some pg → f.idleFee = (s.page pg).idleFee f.idleSeconds) ∧
            f.estimate = (members.map fun q => ((s.record q).segments.map Segment.cost).sum).sum + f.idleFee ∧
            ((s.record r).state ≠ .closed → f.waitingPlace = none) ∧
            (∀ before after, (s.record r).state = .closed → s.ssm.waiting = before ++ head :: after →
              head ∉ before → f.waitingPlace = some (before.length + 1))) ∧
      (31 < x.toNat → exec (.getSession p x) s = .next ((Answer.refuse .badArg s).send p))) ∧
    (∀ x : Byte, s.takenLevel p (.getPlan p x) = some e →
      (∀ q : PlanId, x.toNat = q.val →
        ∃ f : PlanFigures,
          exec (.getPlan p x) s = .next ((Answer.same .ok (.plan f) s).send p) ∧
          f.entry = s.plan q ∧ f.isProtected = s.settings.protectedPlans.getLsbD q.val ∧
          (s.plan q = none → f.page = none) ∧
          (∀ (entry : PlanEntry) (pg : Page), s.plan q = some entry → pg = s.page entry.page →
            f.page = some ⟨pg.state, pg.label, pg.useLevel, pg.idleRate, pg.idleGrace, pg.idleCap, pg.pins,
              pg.slots⟩) ∧
          (∀ x : PageId, f.pool[x.val] = ⟨(s.page x).state, (s.page x).pins, (s.page x).label,
            (allPlans.filter fun o => (s.plan o).map (·.page) = some x).length⟩) ∧
          (s.tfs.staging = none → f.staging = none) ∧
          (∀ st, s.tfs.staging = some st →
            f.staging = some (st.page, st.owner, ((s.page st.page).written.toList.filter (·)).length))) ∧
      (15 < x.toNat → exec (.getPlan p x) s = .next ((Answer.refuse .badArg s).send p)))

/-! ## Sessions -/

/-- AUTHORIZE and a till voucher are answered BAD_ARG for a bay or a plan above 15, a class above 2, a cap presence
above 3 and a present cap of 0, and AUTHORIZE for a request id above 32; no other operands are refused so. A cap whose
presence is given is taken and any other is ignored (R83, R84, R190). -/
def Obligations.SessionOperandsChecked : Prop :=
  ∀ (bay plan cls presence : Byte) (energy cost : Word32) (bad : Prop),
    (bad ↔ 15 < bay.toNat ∨ 15 < plan.toNat ∨ 2 < cls.toNat ∨ 3 < presence.toNat ∨
      (presence.getLsbD 0 = true ∧ energy = 0) ∨ (presence.getLsbD 1 = true ∧ cost = 0)) →
    (∀ (p : Port) (e : Nat) (requestId : Byte) (s : State),
      s.takenLevel p (.authorize p bay requestId plan cls presence energy cost) = some e →
      bad ∨ 32 < requestId.toNat →
      exec (.authorize p bay requestId plan cls presence energy cost) s =
        .next ((Answer.refuse .badArg s).send p)) ∧
    (∀ (p : Port) (e : Nat) (s : State), s.takenLevel p (.tillVoucher p bay plan cls presence energy cost) = some e →
      bad →
      exec (.tillVoucher p bay plan cls presence energy cost) s = .next ((Answer.refuse .badArg s).send p)) ∧
    (sessionOperands bay plan cls presence energy cost = none ↔ bad) ∧
    (∀ o, sessionOperands bay plan cls presence energy cost = some o →
      o.bay.val = bay.toNat ∧ o.plan.val = plan.toNat ∧ o.cls.val = cls.toNat ∧
      o.energyCap = (if presence.getLsbD 0 then some energy.toNat else none) ∧
      o.costCap = (if presence.getLsbD 1 then some cost.toNat else none))

/-- The record that is taken is the first FREE one at or after the allocation pointer, counting upwards and wrapping
from 31 to 0; there is none exactly when no record is FREE (R77). -/
def Obligations.FreeRecordIsTheFirstFromThePointer : Prop :=
  ∀ s : State,
    (∀ r : RecordId, s.freeRecord = some r ↔
      (s.record r).state = .free ∧
        ∀ q : RecordId, (q - s.ssm.allocPointer).val < (r - s.ssm.allocPointer).val → (s.record q).state ≠ .free) ∧
    (s.freeRecord = none ↔ ∀ r : RecordId, (s.record r).state ≠ .free)

/-- An AUTHORIZE that passes its checks moves the PENDING record to ACTIVE with the plan, class and caps given, the
page the plan's entry names now, one pin more on that page, the next start sequence number, the present time and the
bay's last counter. STARTED and then the reply OK are handed over, and nothing else changes. Its refusals are BAD_ARG,
TOO_LATE, NO_PLAN and DENIED in this order (R83). -/
def Obligations.AuthorizeActivates : Prop :=
  (∀ (p : Port) (e : Nat) (bay requestId plan cls presence : Byte) (energy cost : Word32) (s : State)
    (o : SessionOperands) (r : RecordId) (pg : PageId),
    s.takenLevel p (.authorize p bay requestId plan cls presence energy cost) = some e →
    sessionOperands bay plan cls presence energy cost = some o → requestId.toNat = r.val + 1 →
    (s.record r).state = .pending → (s.record r).bay = o.bay → s.planUse e o.plan = .usable pg →
    exec (.authorize p bay requestId plan cls presence energy cost) s =
      .next ((Answer.mk .ok (.authorised r (nextStart s.ssm.startCounter))
        { s.notify (.session (.started r o.bay (some o.plan) o.cls (nextStart s.ssm.startCounter))) with
          ssm := { s.ssm with
            startCounter := nextStart s.ssm.startCounter
            records := put s.ssm.records r
              { Record.cleared with
                state := .active
                bay := o.bay
                token := (s.record r).token
                plan := some o.plan
                page := some pg
                cls := o.cls
                depth := 1
                startSeq := some (nextStart s.ssm.startCounter)
                startTime := s.now
                meterLast := (s.bay o.bay).lastCounter
                energyCap := o.energyCap
                costCap := o.costCap
                charge := .waiting } }
          tfs := { s.tfs with pages := put s.tfs.pages pg { s.page pg with pins := (s.page pg).pins + 1 } }
          blc := { s.blc with
            bays := put s.blc.bays o.bay { s.bay o.bay with session := some r } } }).send p)) ∧
  (∀ (p : Port) (e : Nat) (bay requestId plan cls presence : Byte) (energy cost : Word32) (s : State),
    s.takenLevel p (.authorize p bay requestId plan cls presence energy cost) = some e →
    (∀ code, code = .badArg ∧
        (sessionOperands bay plan cls presence energy cost = none ∨ requestId = 0 ∨ 32 < requestId.toNat) ∨
      (∃ (o : SessionOperands) (r : RecordId), sessionOperands bay plan cls presence energy cost = some o ∧
        requestId.toNat = r.val + 1 ∧
        (code = .tooLate ∧ ((s.record r).state ≠ .pending ∨ (s.record r).bay ≠ o.bay) ∨
          (s.record r).state = .pending ∧ (s.record r).bay = o.bay ∧
            (code = .noPlan ∧ s.plan o.plan = none ∨
              code = .denied ∧ ∃ x, s.plan o.plan = some x ∧ (x.useLevel < e ∨ (s.page x.page).useLevel < e)))) →
      exec (.authorize p bay requestId plan cls presence energy cost) s = .next ((Answer.refuse code s).send p)))

/-- A till voucher that passes its checks opens an ACTIVE root on the bay in the first FREE record, with the token of
the bay's last STATUS, clears the bay's ended-latch and no-context mark, and hands over STARTED and then OK; nothing
else changes. Its refusals are BAD_ARG, CLOCK_UNSET, NO_VEHICLE, BUSY, NO_PLAN, DENIED and NO_CONTEXT in this order
(R84). -/
def Obligations.TillVoucherOpens : Prop :=
  (∀ (p : Port) (e : Nat) (bay plan cls presence : Byte) (energy cost : Word32) (s : State)
    (o : SessionOperands) (r : RecordId) (pg : PageId),
    s.takenLevel p (.tillVoucher p bay plan cls presence energy cost) = some e →
    sessionOperands bay plan cls presence energy cost = some o → s.now ≠ none →
    (s.bay o.bay).link = .online →
    ((s.bay o.bay).lastStatus.vehicle = .plugged ∨ (s.bay o.bay).lastStatus.vehicle = .demanding) →
    (s.bay o.bay).session = none → (s.bay o.bay).reservedFor = none → s.planUse e o.plan = .usable pg →
    s.freeRecord = some r →
    exec (.tillVoucher p bay plan cls presence energy cost) s =
      .next ((Answer.mk .ok (.authorised r (nextStart s.ssm.startCounter))
        { s.notify (.session (.started r o.bay (some o.plan) o.cls (nextStart s.ssm.startCounter))) with
          ssm := { s.ssm with
            startCounter := nextStart s.ssm.startCounter
            allocPointer := r + 1
            endedLatch := put s.ssm.endedLatch o.bay false
            noContextMark := put s.ssm.noContextMark o.bay false
            records := put s.ssm.records r
              { Record.cleared with
                state := .active
                bay := o.bay
                token := (s.bay o.bay).lastStatus.token
                plan := some o.plan
                page := some pg
                cls := o.cls
                depth := 1
                startSeq := some (nextStart s.ssm.startCounter)
                startTime := s.now
                meterLast := (s.bay o.bay).lastCounter
                energyCap := o.energyCap
                costCap := o.costCap
                charge := .waiting } }
          tfs := { s.tfs with pages := put s.tfs.pages pg { s.page pg with pins := (s.page pg).pins + 1 } }
          blc := { s.blc with
            bays := put s.blc.bays o.bay { s.bay o.bay with session := some r } } }).send p)) ∧
  (∀ (p : Port) (e : Nat) (bay plan cls presence : Byte) (energy cost : Word32) (s : State) (c : Instr)
    (refused : ResultCode → Prop),
    c = .tillVoucher p bay plan cls presence energy cost → s.takenLevel p c = some e →
    (∀ code, refused code ↔ exec c s = .next ((Answer.refuse code s).send p)) →
    (sessionOperands bay plan cls presence energy cost = none → refused .badArg) ∧
    (∀ (o : SessionOperands) (here open_ : Prop), sessionOperands bay plan cls presence energy cost = some o →
      (here ↔ (s.bay o.bay).link = .online ∧
        ((s.bay o.bay).lastStatus.vehicle = .plugged ∨ (s.bay o.bay).lastStatus.vehicle = .demanding)) →
      (open_ ↔ (s.bay o.bay).session = none ∧ (s.bay o.bay).reservedFor = none) →
      (s.now = none → refused .clockUnset) ∧
      (s.now ≠ none → ¬ here → refused .noVehicle) ∧
      (s.now ≠ none → here → ¬ open_ → refused .busy) ∧
      (s.now ≠ none → here → open_ →
        (s.plan o.plan = none → refused .noPlan) ∧
        (∀ x, s.plan o.plan = some x →
          (x.useLevel < e ∨ (s.page x.page).useLevel < e → refused .denied) ∧
          (e ≤ x.useLevel → e ≤ (s.page x.page).useLevel → (∀ r : RecordId, (s.record r).state ≠ .free) →
            refused .noContext)))))

/-- DENY frees the named record when it is PENDING on the named bay, clears the bay's session record id, sets its
ended-latch and answers OK with no notice. A record that is not PENDING there gives TOO_LATE; a bay above 15, or a
request id of 0 or above 32, gives BAD_ARG (R85). -/
def Obligations.DenyFrees : Prop :=
  ∀ (p : Port) (e : Nat) (bay requestId : Byte) (s : State), s.takenLevel p (.deny p bay requestId) = some e →
    (∀ (b : BayId) (r : RecordId), bay.toNat = b.val → requestId.toNat = r.val + 1 →
      ((s.record r).state = .pending ∧ (s.record r).bay = b →
        exec (.deny p bay requestId) s =
          .next ((Answer.mk .ok .nothing
            { s with
              ssm := { s.ssm with
                records := put s.ssm.records r Record.cleared
                endedLatch := put s.ssm.endedLatch b true }
              blc := { s.blc with bays := put s.blc.bays b { s.bay b with session := none } } }).send p)) ∧
      (¬ ((s.record r).state = .pending ∧ (s.record r).bay = b) →
        exec (.deny p bay requestId) s = .next ((Answer.refuse .tooLate s).send p))) ∧
    (15 < bay.toNat ∨ requestId = 0 ∨ 32 < requestId.toNat →
      exec (.deny p bay requestId) s = .next ((Answer.refuse .badArg s).send p))

/-- The three expiries of a record. An authorisation deadline frees the PENDING record, clears the bay's session record
id, sets its ended-latch and hands over AUTH_TIMEOUT; a resume deadline closes the SUSPENDED head's chain with LINK_LOST
and a transfer deadline the TRANSFERRING head's with TRANSFER_TIMEOUT, the vehicle judged by the bay's last STATUS (R86,
R96, R108). That an expiry before the clock reaches the deadline, and one of a record in another state, does nothing is
the model's choice (assumption 11). -/
def Obligations.ExpiriesFreeOrClose : Prop :=
  ∀ (r : RecordId) (now t : SiteTime) (s : State), s.now = some now →
    ((s.record r).authDeadline = some t →
      ((s.record r).state = .pending → now.reaches t = true →
        exec (.authTimeout r) s =
          .next { s.notify (.session (.authTimeout r (s.record r).bay)) with
            ssm := { s.ssm with
              records := put s.ssm.records r Record.cleared
              endedLatch := put s.ssm.endedLatch (s.record r).bay true }
            blc := { s.blc with
              bays := put s.blc.bays (s.record r).bay { s.bay (s.record r).bay with session := none } } }) ∧
      (¬ ((s.record r).state = .pending ∧ now.reaches t = true) → exec (.authTimeout r) s = .next s)) ∧
    ((s.record r).resumeDeadline = some t →
      ((s.record r).state = .suspended → now.reaches t = true →
        exec (.resumeDeadlineExpiry r) s = .next
          (s.closeChain r .linkLost ((s.bay (s.record r).bay).lastStatus.vehicle != .unplugged))) ∧
      (¬ ((s.record r).state = .suspended ∧ now.reaches t = true) → exec (.resumeDeadlineExpiry r) s = .next s)) ∧
    ((s.record r).transferDeadline = some t →
      ((s.record r).state = .transferring → now.reaches t = true →
        exec (.transferTimeout r) s = .next
          (s.closeChain r .transferTimeout ((s.bay (s.record r).bay).lastStatus.vehicle != .unplugged))) ∧
      (¬ ((s.record r).state = .transferring ∧ now.reaches t = true) → exec (.transferTimeout r) s = .next s))

/-- What a close changes, and that it changes nothing else. The reservation of a TRANSFERRING head is released: its
target bay loses its reserved-for id and foreign-vehicle mark, and the head its deadline and target. The head takes
the present time as end time and the reason, and loses its resume deadline and suspension reason; its bay loses its
session record id, and takes the ended-latch when the reason is STOPPED or the vehicle is plugged. CLOSED is handed
over. With no chain waiting and room in the receipt queue every member is RECEIPTED, the receipt built of the chain
joins the queue with the next number and RECEIPT is handed over; otherwise every member is CLOSED and the chain waits
last (R80, R110, R114, R149, R150). -/
def Obligations.CloseEndsTheChain : Prop :=
  ∀ (head : RecordId) (reason : EndReason) (plugged : Bool) (s t : State) (b : BayId) (moving : Bool) (room : Prop)
    (after : RecordState) (told : State),
    s.closeChain head reason plugged = t → (s.record head).bay = b →
    moving = decide ((s.record head).state = .transferring) →
    (room ↔ s.ssm.waiting = [] ∧ s.rcq.entries.length < 8) →
    (room → after = .receipted) → (¬ room → after = .closed) →
    told = s.notify (.session (.closed head b reason (s.chainMetered head) (s.record head).depth)) →
    t = { s with blc := t.blc, ssm := t.ssm, rcq := t.rcq, mpt := t.mpt } ∧
    t.ssm = { s.ssm with
      records := t.ssm.records
      endedLatch := if reason = .stopped ∨ plugged = true then put s.ssm.endedLatch b true else s.ssm.endedLatch
      waiting := t.ssm.waiting } ∧
    t.record head = { s.record head with
      state := after
      endTime := s.now
      endReason := some reason
      resumeDeadline := none
      suspension := none
      transferDeadline := if moving then none else (s.record head).transferDeadline
      transferTarget := if moving then none else (s.record head).transferTarget } ∧
    (∀ q : RecordId, q ≠ head → q ∈ s.chain head → t.record q = { s.record q with state := after }) ∧
    (∀ q : RecordId, q ∉ s.chain head → t.record q = s.record q) ∧
    t.blc = { s.blc with bays := t.blc.bays } ∧
    (∀ (c : BayId) (target : Bool),
      target = (moving && decide ((s.record head).transferTarget = some c)) →
      t.bay c = { s.bay c with
        session := if c = b then none else (s.bay c).session
        reservedFor := if target then none else (s.bay c).reservedFor
        foreignMark := if target then false else (s.bay c).foreignMark }) ∧
    (room → ∃ receipt : Receipt,
      receipt = t.buildReceipt s.rcq.nextNumber head ∧ t.ssm.waiting = [] ∧
      t.rcq = ⟨s.rcq.entries ++ [receipt], if s.rcq.nextNumber = 0xFFFFFFFF then 1 else s.rcq.nextNumber + 1⟩ ∧
      t.mpt = (told.notify (.receipt receipt false)).mpt) ∧
    (¬ room → t.ssm.waiting = s.ssm.waiting ++ [head] ∧ t.rcq = s.rcq ∧ t.mpt = told.mpt)

/-- STOP_SESSION closes the chain of an ACTIVE, SUSPENDED or TRANSFERRING head with reason STOPPED and the ended-latch
of its bay set, and SET_CLASS sets the class of such a head; each answers OK. A record in any other state gives
NOT_ACTIVE, and a record above 31 or a class above 2 BAD_ARG (R97, R98); that a class above 2 gives BAD_ARG also for a
record in another state is the model's choice (assumption 27). -/
def Obligations.RunningHeadsStopAndChangeClass : Prop :=
  ∀ (p : Port) (e : Nat) (x y : Byte) (s : State) (runs : RecordId → Prop),
    (∀ r, runs r ↔
      (s.record r).state = .active ∨ (s.record r).state = .suspended ∨ (s.record r).state = .transferring) →
    (s.takenLevel p (.stopSession p x) = some e →
      (∀ r : RecordId, x.toNat = r.val →
        (runs r → exec (.stopSession p x) s = .next ((Answer.mk .ok .nothing (s.closeChain r .stopped true)).send p)) ∧
        (¬ runs r → exec (.stopSession p x) s = .next ((Answer.refuse .notActive s).send p))) ∧
      (31 < x.toNat → exec (.stopSession p x) s = .next ((Answer.refuse .badArg s).send p))) ∧
    (s.takenLevel p (.setClass p x y) = some e →
      (∀ (r : RecordId) (c : Fin 3), x.toNat = r.val → y.toNat = c.val →
        (runs r →
          exec (.setClass p x y) s =
            .next ((Answer.mk .ok .nothing
              { s with ssm := { s.ssm with records := put s.ssm.records r { s.record r with cls := c } } }).send p)) ∧
        (¬ runs r → exec (.setClass p x y) s = .next ((Answer.refuse .notActive s).send p))) ∧
      (31 < x.toNat ∨ 2 < y.toNat → exec (.setClass p x y) s = .next ((Answer.refuse .badArg s).send p)))

/-! ## Chains -/

/-- A TRANSFER that passes its checks makes the head TRANSFERRING with the target and a deadline of the present time
plus the transfer timeout, reserves the target bay for it with its foreign-vehicle mark cleared, hands over
TRANSFERRING and answers OK with the deadline; nothing else changes. Its refusals are BAD_ARG, NOT_ACTIVE, CHAIN_FULL,
BAD_ARG for a disabled target and BUSY in this order (R102, R103). CANCEL_TRANSFER releases the reservation and
suspends the head on its own bay, with a resume deadline of the present time plus the resume window and the reason
UNSCHEDULED when that bay is ABSENT, FAULT when it is ONLINE and its last STATUS shows FAULT, and SILENT otherwise;
SUSPENDED and then OK are handed over, and nothing else changes. A record above 31 gives BAD_ARG and one that is not
TRANSFERRING NOT_ACTIVE (R109). -/
def Obligations.TransfersReserveAndCancel : Prop :=
  (∀ (p : Port) (e : Nat) (x y : Byte) (r : RecordId) (b : BayId) (s : State),
    s.takenLevel p (.transfer p x y) = some e → x.toNat = r.val → y.toNat = b.val →
    ((s.record r).state = .active ∨ (s.record r).state = .suspended) → (s.record r).depth < 4 →
    s.settings.enabled[b.val] = true → (s.bay b).session = none → (s.bay b).reservedFor = none →
    exec (.transfer p x y) s =
      .next ((Answer.mk .ok (.deadline (s.deadline (1000 * s.settings.transferTimeout)))
        { s.notify (.session (.transferring r (s.record r).bay b (s.deadline (1000 * s.settings.transferTimeout)))) with
          ssm := { s.ssm with
            records := put s.ssm.records r
              { s.record r with
                state := .transferring
                transferTarget := some b
                transferDeadline := s.deadline (1000 * s.settings.transferTimeout)
                resumeDeadline := none
                suspension := none
                charge := .waiting } }
          blc := { s.blc with
            bays := put s.blc.bays b { s.bay b with reservedFor := some r, foreignMark := false } } }).send p)) ∧
  (∀ (p : Port) (e : Nat) (x y : Byte) (s : State), s.takenLevel p (.transfer p x y) = some e →
    (31 < x.toNat ∨ 15 < y.toNat → exec (.transfer p x y) s = .next ((Answer.refuse .badArg s).send p)) ∧
    (∀ (r : RecordId) (b : BayId), x.toNat = r.val → y.toNat = b.val →
      (¬ ((s.record r).state = .active ∨ (s.record r).state = .suspended) →
        exec (.transfer p x y) s = .next ((Answer.refuse .notActive s).send p)) ∧
      ((s.record r).state = .active ∨ (s.record r).state = .suspended →
        (4 ≤ (s.record r).depth → exec (.transfer p x y) s = .next ((Answer.refuse .chainFull s).send p)) ∧
        ((s.record r).depth < 4 → s.settings.enabled[b.val] = false →
          exec (.transfer p x y) s = .next ((Answer.refuse .badArg s).send p)) ∧
        ((s.record r).depth < 4 → s.settings.enabled[b.val] = true →
          ((s.bay b).session ≠ none ∨ (s.bay b).reservedFor ≠ none) →
          exec (.transfer p x y) s = .next ((Answer.refuse .busy s).send p))))) ∧
  (∀ (p : Port) (e : Nat) (x : Byte) (r : RecordId) (b : BayId) (why : SuspensionReason) (s : State),
    s.takenLevel p (.cancelTransfer p x) = some e → x.toNat = r.val →
    (s.record r).state = .transferring → (s.record r).transferTarget = some b →
    why = (if (s.bay (s.record r).bay).link = .absent then .unscheduled
      else if (s.bay (s.record r).bay).link = .online ∧ (s.bay (s.record r).bay).lastStatus.vehicle = .fault then .fault
      else .silent) →
    exec (.cancelTransfer p x) s =
      .next ((Answer.mk .ok .nothing
        { s.notify (.session (.suspended r (s.record r).bay why)) with
          ssm := { s.ssm with
            records := put s.ssm.records r
              { s.record r with
                state := .suspended
                transferTarget := none
                transferDeadline := none
                suspension := some why
                resumeDeadline := s.deadline (1000 * s.settings.resumeWindow)
                charge := .waiting } }
          blc := { s.blc with
            bays := put s.blc.bays b { s.bay b with reservedFor := none, foreignMark := false } } }).send p)) ∧
  (∀ (p : Port) (e : Nat) (x : Byte) (s : State), s.takenLevel p (.cancelTransfer p x) = some e →
    (31 < x.toNat → exec (.cancelTransfer p x) s = .next ((Answer.refuse .badArg s).send p)) ∧
    (∀ r : RecordId, x.toNat = r.val → (s.record r).state ≠ .transferring →
      exec (.cancelTransfer p x) s = .next ((Answer.refuse .notActive s).send p)))

/-- A report on a bay that is reserved and has no live record. It matches when it shows PLUGGED or DEMANDING and
carries the chain's token, or no token while token-free transfer is on. A match with a FREE record is the arrival: the
new head is ACTIVE on the bay with the chain's token, plan, page, class, caps and start sequence number, one deeper
than the old head, with nothing metered and the bay's last counter; the old head is LINKED, the page takes one pin,
the two bays change hands, the bay's marks are cleared, CONTINUED is handed over, and nothing else changes. A match
with no FREE record closes the chain with NO_CONTEXT and sets the bay's ended-latch. A foreign vehicle is announced
once and marked; UNPLUGGED clears the bay's marks; nothing else does anything (R79, R105, R106, R107). -/
def Obligations.ArrivalContinuesTheChain : Prop :=
  ∀ (s : State) (b home : BayId) (old : RecordId) (report previous : Report) (before : Option SiteTime)
    (asks same : Prop),
    (s.bay b).reservedFor = some old → (s.bay b).session = none → (s.record old).bay = home →
    (asks ↔ report.vehicle = .plugged ∨ report.vehicle = .demanding) →
    (same ↔ report.token = (s.record old).token ∨ s.settings.tokenFreeTransfer = true ∧ report.token = none) →
    (∀ (t : State) (new : RecordId), asks → same → s.freeRecord = some new → new ≠ old → home ≠ b →
      s.statusEvent b report previous before = t →
      t = { s with blc := t.blc, ssm := t.ssm, tfs := t.tfs, mpt := t.mpt } ∧
      t.record new =
        { Record.cleared with
          state := .active
          bay := b
          token := (s.record old).token
          plan := (s.record old).plan
          page := (s.record old).page
          cls := (s.record old).cls
          backLink := some old
          depth := (s.record old).depth + 1
          startSeq := (s.record old).startSeq
          startTime := s.now
          meterLast := (s.bay b).lastCounter
          energyCap := (s.record old).energyCap
          costCap := (s.record old).costCap
          charge := .waiting } ∧
      t.record old = (s.record old).linked ∧
      (∀ q : RecordId, q ≠ old → q ≠ new → t.record q = s.record q) ∧
      t.ssm = { s.ssm with
        records := t.ssm.records
        allocPointer := new + 1
        endedLatch := put s.ssm.endedLatch b false
        noContextMark := put s.ssm.noContextMark b false } ∧
      t.blc = { s.blc with
        bays := put (put s.blc.bays home { s.bay home with session := none }) b
          { s.bay b with reservedFor := none, session := some new, foreignMark := false } } ∧
      t.tfs = { s.tfs with pages := t.tfs.pages } ∧
      (∀ pg : PageId, t.page pg = s.pinned (s.record old).page pg) ∧
      t.mpt = (s.notify (.session (.continued old new b ((s.record old).depth + 1) .transfer))).mpt) ∧
    (∀ u : State, asks → same → s.freeRecord = none →
      s.closeChain old .noContext ((s.bay home).lastStatus.vehicle != .unplugged) = u →
      s.statusEvent b report previous before =
        { u with ssm := { u.ssm with endedLatch := put u.ssm.endedLatch b true } }) ∧
    (asks → ¬ same → (s.bay b).foreignMark = false →
      s.statusEvent b report previous before =
        { s.notify (.bayReserved b old) with
          blc := { s.blc with bays := put s.blc.bays b { s.bay b with foreignMark := true } } }) ∧
    (asks → ¬ same → (s.bay b).foreignMark = true → s.statusEvent b report previous before = s) ∧
    (report.vehicle = .fault → s.statusEvent b report previous before = s) ∧
    (report.vehicle = .unplugged → s.statusEvent b report previous before = s.unmarked b)

/-- A delta that needs a ninth triple, or would pass 2^32 − 1 Wh. In a head of depth below 4 with a FREE record it opens
a continuation on the same bay: the old head keeps its figures, the new head carries the chain on with the state, charge
state, caps and start sequence number of the old, and holds the delta alone; the caps of the chain are checked, and
CONTINUED is handed over (R111, R139; that it follows the check is the model's reading, assumption 12). With no FREE
record the chain closes with NO_CONTEXT and the delta goes to the bay's unbilled Wh (R113; that the ended-latch is set
whatever the last STATUS shows is the model's reading, assumption 13). At depth 4 the chain closes with SPLIT_LIMIT: a
fresh root opens on the page the plan names now, with each cap reduced by what the closed chain used, takes the delta
alone and has its caps checked; or, with the plan absent or no FREE record, the ended-latch is set and the delta goes to
the unbilled Wh (R112). -/
def Obligations.NinthTripleContinuesOrCloses : Prop :=
  ∀ (s t : State) (old : RecordId) (b : BayId) (e : Nat) (counter : Word32) (h : Record) (stays : Bool),
    s.record old = h → h.bay = b → s.ninthTriple old e counter = t →
    stays = ((s.bay b).lastStatus.vehicle != .unplugged) →
    (∀ new : RecordId, s.freeRecord = some new → new ≠ old → h.depth < 4 →
      ∃ v : State,
        v = { s with blc := v.blc, ssm := v.ssm, tfs := v.tfs } ∧
        v.ssm = { s.ssm with records := v.ssm.records, allocPointer := new + 1 } ∧
        v.record new =
          { Record.cleared with
            state := h.state
            bay := b
            token := h.token
            plan := h.plan
            page := h.page
            cls := h.cls
            backLink := some old
            depth := h.depth + 1
            startSeq := h.startSeq
            startTime := s.now
            meterLast := some counter
            metered := e
            segments := addDelta e (s.sharesFor h.cls) (s.tripleFor old) s.now []
            energyCap := h.energyCap
            costCap := h.costCap
            charge := h.charge
            suspension := h.suspension
            resumeDeadline := h.resumeDeadline } ∧
        v.record old = h.linked ∧ (∀ q : RecordId, q ≠ old → q ≠ new → v.record q = s.record q) ∧
        v.blc = { s.blc with bays := put s.blc.bays b { s.bay b with session := some new } } ∧
        v.tfs = { s.tfs with pages := v.tfs.pages } ∧ (∀ pg : PageId, v.page pg = s.pinned h.page pg) ∧
        (v.AtCap new → t =
          (v.closeChain new .capReached stays).notify (.session (.continued old new b (h.depth + 1) .rollover))) ∧
        (¬ v.AtCap new → t = v.notify (.session (.continued old new b (h.depth + 1) .rollover)))) ∧
    (∀ u : State, s.freeRecord = none → h.depth < 4 → s.closeChain old .noContext true = u →
      t = { u with
        blc := { u.blc with
          bays := put u.blc.bays b { u.bay b with unbilledWh := (u.bay b).unbilledWh + BitVec.ofNat 32 e } } }) ∧
    (∀ u : State, 4 ≤ h.depth → s.endChain old .splitLimit false = u →
      ((h.plan.bind s.plan = none ∨ u.freeRecord = none) →
        t = { u with
          ssm := { u.ssm with endedLatch := put u.ssm.endedLatch b true }
          blc := { u.blc with
            bays := put u.blc.bays b { u.bay b with unbilledWh := (u.bay b).unbilledWh + BitVec.ofNat 32 e } } }) ∧
      (∀ (entry : PlanEntry) (new : RecordId), h.plan.bind s.plan = some entry → u.freeRecord = some new →
        ∃ v : State,
          v = { u with blc := v.blc, ssm := v.ssm, tfs := v.tfs, mpt := v.mpt } ∧
          v.ssm = { u.ssm with
            records := v.ssm.records, allocPointer := new + 1, startCounter := nextStart s.ssm.startCounter } ∧
          v.record new =
            { Record.cleared with
              state := h.state
              bay := b
              token := h.token
              plan := h.plan
              page := some entry.page
              cls := h.cls
              depth := 1
              startSeq := some (nextStart s.ssm.startCounter)
              startTime := s.now
              meterLast := some counter
              metered := e
              segments := addDelta e (s.sharesFor h.cls) ((s.page entry.page).priceAt s.now) s.now []
              energyCap := h.energyCap.map (· - s.chainMetered old)
              costCap := h.costCap.map (· - s.estimate old)
              charge := .waiting
              suspension := h.suspension
              resumeDeadline := h.resumeDeadline } ∧
          (∀ q : RecordId, q ≠ new → v.record q = u.record q) ∧
          v.blc = { u.blc with bays := put u.blc.bays b { u.bay b with session := some new } } ∧
          v.tfs = { s.tfs with pages := v.tfs.pages } ∧ (∀ pg : PageId, v.page pg = s.pinned (some entry.page) pg) ∧
          v.mpt =
            (u.notify (.session (.started new b h.plan h.cls (nextStart s.ssm.startCounter)))).mpt ∧
          (v.AtCap new → t = v.closeChain new .capReached stays) ∧ (¬ v.AtCap new → t = v)))

/-! ## Receipts -/

/-- What a receipt holds: its number and the present time; the head's record id, token, plan, class, bay, end time,
end reason and depth; the root's start sequence number, label, bay and start time; a line for each segment of each
member in chain order, or one nil line at the root's start time when no member holds a segment; an idle line when the
chain has idle time; and the totals of its lines and its idle fee, which are the chain's running cost estimate and
1000 mWh for each Wh its members metered (R101, R131, R132, R139, R145, R151–R153). -/
def Obligations.ReceiptsAreBuiltFromTheChain : Prop :=
  ∀ (s : State) (number seq : Word32) (members : List RecordId) (root head : RecordId) (pg : PageId) (plan : PlanId)
    (reason : EndReason) (ms : Nat) (x : Receipt),
    s.IsChain members head → members.head? = some root → (s.record root).page = some pg →
    (s.record root).startSeq = some seq → (s.record head).plan = some plan →
    (s.record head).endReason = some reason → ms = (members.map fun q => (s.record q).idleMs).sum →
    x = s.buildReceipt number head →
    x = { x with
      number := number
      issueTime := s.now
      head := head
      startSeq := seq
      token := (s.record head).token
      plan := plan
      label := (s.page pg).label
      cls := (s.record head).cls
      firstBay := (s.record root).bay
      lastBay := (s.record head).bay
      startTime := (s.record root).startTime
      endTime := (s.record head).endTime
      endReason := reason
      records := (s.record head).depth } ∧
    ((∃ q ∈ members, (s.record q).segments ≠ []) →
      x.lines = members.zipIdx.flatMap fun q => (s.record q.1).segments.map fun g =>
        ⟨q.2, g.firstUse, g.triple, g.solar, g.battery, g.grid, g.cost⟩) ∧
    (∀ (t : SiteTime) (slot : Fin 48), (∀ q ∈ members, (s.record q).segments = []) →
      (s.record root).startTime = some t → slot.val = t.ms.val / 1800000 →
      x.lines = [⟨0, some t, (s.page pg).slots[slot.val], 0, 0, 0, 0⟩]) ∧
    (ms = 0 → x.idleLine = none) ∧
    (0 < ms → x.idleLine = some ⟨ms / 60000, (s.page pg).idleFee (ms / 1000)⟩) ∧
    x.totalMWh = (x.lines.map fun l => l.solar + l.battery + l.grid).sum ∧
    x.totalCents = (x.lines.map fun l => l.cost).sum + (x.idleLine.map IdleLine.fee).getD 0 ∧
    x.totalCents = s.estimate head ∧
    ((∀ q ∈ members, (s.record q).Balanced) → x.totalMWh = 1000 * s.chainMetered head)

/-- RECEIPT_ACK of a number held, with no chain waiting: its entry leaves the queue, every member of its chain becomes
FREE with every field cleared, and each member's pin leaves its page, which becomes FREE when it was RETIRED and that
was its last pin. The reply is OK, and nothing else changes. Stated for a chain that names no record twice, as every
chain does (R155, R115, R130). -/
def Obligations.ReceiptAckFreesTheChain : Prop :=
  ∀ (p : Port) (e : Nat) (n : Word32) (s : State) (r : Receipt),
    s.takenLevel p (.receiptAck p n) = some e → s.receiptHeld n = some r → s.ssm.waiting = [] →
    (s.chain r.head).Nodup →
    ∃ t, exec (.receiptAck p n) s = .next ((Answer.mk .ok (.acknowledged n none) t).send p) ∧
      t = { s with
        rcq := { s.rcq with entries := s.rcq.entries.eraseP fun x => x.number = n }
        ssm := { s.ssm with records := t.ssm.records }
        tfs := { s.tfs with pages := t.tfs.pages } } ∧
      (∀ q : RecordId, t.record q = if q ∈ s.chain r.head then Record.cleared else s.record q) ∧
      (∀ (pg : PageId) (k : Nat), ((s.chain r.head).filter fun q => (s.record q).page = some pg).length = k →
        ((s.page pg).state ≠ .retired ∨ k < (s.page pg).pins →
          t.page pg = { s.page pg with pins := (s.page pg).pins - k }) ∧
        ((s.page pg).state = .retired → 0 < k → k = (s.page pg).pins → t.page pg = Page.cleared))

/-- RECEIPT_ACK of a number held while chains wait: the acknowledged chain is freed and its pins are released as with
no chain waiting, and the oldest waiting chain is receipted into the freed place with the next number, which the reply
carries; its receipt is built of the chain, its members are RECEIPTED and its notice is handed over. Every record
outside the two chains stands, and nothing else changes; stated of the records and pages where the acknowledged chain
names no record twice and the two chains share none, as all chains do. A number that is not held gives UNKNOWN with
the queue summary. RECEIPT_GET hands over the stored receipt of a number held with its resent flag set, and leaves
everything else; 0 gives OK and any other number UNKNOWN, each with the queue summary. SET_RECEIPT_BASE takes a number
other than 0 as the next one while the receipt queue and the waiting-chain queue are empty, and is answered BUSY while
they are not (R115, R130, R150, R155, R156, R158, R159, R160); that 0 gives BAD_ARG also while they are not is the
model's choice (assumption 27). -/
def Obligations.ReceiptRequestsWorkTheQueue : Prop :=
  ∀ (p : Port) (e : Nat) (n : Word32) (s : State) (summary : QueueSummary),
    summary = ⟨s.rcq.entries.map fun r => (r.number, r.head), s.rcq.nextNumber, s.ssm.waiting.length⟩ →
    (s.takenLevel p (.receiptAck p n) = some e →
      (∀ (r : Receipt) (head : RecordId) (rest : List RecordId), s.receiptHeld n = some r →
        s.ssm.waiting = head :: rest → s.rcq.entries.length ≤ 8 →
        ∃ (t : State) (receipt : Receipt),
          exec (.receiptAck p n) s = .next ((Answer.mk .ok (.acknowledged n (some s.rcq.nextNumber)) t).send p) ∧
          t = { s with
            rcq := ⟨(s.rcq.entries.eraseP fun x => x.number = n) ++ [receipt], nextNumberAfter s.rcq.nextNumber⟩
            ssm := { s.ssm with records := t.ssm.records, waiting := rest }
            tfs := { s.tfs with pages := t.tfs.pages }
            mpt := (s.notify (.receipt receipt false)).mpt } ∧
          receipt = t.buildReceipt s.rcq.nextNumber head ∧ (∀ q ∈ t.chain head, (t.record q).state = .receipted) ∧
          ((s.chain r.head).Nodup → (∀ q ∈ s.chain head, q ∉ s.chain r.head) →
            t.chain head = s.chain head ∧
            (∀ q : RecordId, t.record q =
              if q ∈ s.chain r.head then Record.cleared
              else if q ∈ s.chain head then { s.record q with state := .receipted } else s.record q) ∧
            (∀ (pg : PageId) (k : Nat),
              ((s.chain r.head).filter fun q => (s.record q).page = some pg).length = k →
              ((s.page pg).state ≠ .retired ∨ k < (s.page pg).pins →
                t.page pg = { s.page pg with pins := (s.page pg).pins - k }) ∧
              ((s.page pg).state = .retired → 0 < k → k = (s.page pg).pins → t.page pg = Page.cleared)))) ∧
      (s.receiptHeld n = none →
        exec (.receiptAck p n) s = .next ((Answer.same .unknown (.queue summary) s).send p))) ∧
    (s.takenLevel p (.receiptGet p n) = some e →
      (n = 0 → exec (.receiptGet p n) s = .next ((Answer.same .ok (.queue summary) s).send p)) ∧
      (n ≠ 0 → s.receiptHeld n = none →
        exec (.receiptGet p n) s = .next ((Answer.same .unknown (.queue summary) s).send p)) ∧
      (∀ r : Receipt, n ≠ 0 → s.receiptHeld n = some r →
        exec (.receiptGet p n) s =
          .next ((Answer.mk .ok (.queue summary) (s.notify (.receipt r true))).send p))) ∧
    (s.takenLevel p (.setReceiptBase p n) = some e →
      (n = 0 → exec (.setReceiptBase p n) s = .next ((Answer.refuse .badArg s).send p)) ∧
      (n ≠ 0 → s.rcq.entries ≠ [] ∨ s.ssm.waiting ≠ [] →
        exec (.setReceiptBase p n) s = .next ((Answer.same .busy (.queue summary) s).send p)) ∧
      (n ≠ 0 → s.rcq.entries = [] → s.ssm.waiting = [] →
        exec (.setReceiptBase p n) s =
          .next ((Answer.mk .ok .nothing { s with rcq := { s.rcq with nextNumber := n } }).send p)))

/-! ## Tariffs -/

/-- PAGE_OPEN takes the lowest FREE page into STAGING with what it gives, nothing written, and the port as owner; its
refusals are BAD_ARG, BUSY and STORE_FULL in this order. PAGE_DISCARD from either port clears the staging page and
closes the staging state, and gives NOT_ACTIVE when it is closed. Nothing else changes (R120, R122). That a presence
byte above 1 gives BAD_ARG is the model's reading (assumption 16), and that BAD_ARG comes before BUSY is its choice
(assumption 19). -/
def Obligations.PageOpenAndDiscard : Prop :=
  ∀ (p : Port) (e : Nat) (s : State),
    (∀ (label : Label) (useLevel grace presence : Byte) (rate cap : Word16) (good : Prop) (c : Instr),
      c = .pageOpen p label useLevel rate grace presence cap →
      s.takenLevel p c = some e →
      (good ↔ useLevel.toNat ≤ 2 ∧ rate.toNat ≤ 1000 ∧ grace.toNat ≤ 240 ∧ presence.toNat ≤ 1) →
      (¬ good → exec c s = .next ((Answer.refuse .badArg s).send p)) ∧
      (good → s.tfs.staging ≠ none → exec c s = .next ((Answer.refuse .busy s).send p)) ∧
      (good → s.tfs.staging = none → (∀ q : PageId, (s.page q).state ≠ .free) →
        exec c s = .next ((Answer.refuse .storeFull s).send p)) ∧
      (∀ pg : PageId, good → s.tfs.staging = none → (s.page pg).state = .free →
        (∀ q : PageId, q < pg → (s.page q).state ≠ .free) →
        exec c s =
          .next ((Answer.mk .ok (.page pg)
            { s with
              tfs := { s.tfs with
                staging := some ⟨pg, p⟩
                pages := put s.tfs.pages pg
                  { Page.cleared with
                    state := .staging
                    label := label
                    useLevel := useLevel.toNat
                    idleRate := rate.toNat
                    idleGrace := grace.toNat
                    idleCap := if presence = 1 then some cap.toNat else none } } }).send p))) ∧
    (s.takenLevel p (.pageDiscard p) = some e →
      (s.tfs.staging = none → exec (.pageDiscard p) s = .next ((Answer.refuse .notActive s).send p)) ∧
      (∀ st : Staging, s.tfs.staging = some st →
        exec (.pageDiscard p) s =
          .next ((Answer.mk .ok (.page st.page)
            { s with
              tfs := { s.tfs with
                staging := none
                pages := put s.tfs.pages st.page Page.cleared } }).send p)))

/-- PAGE_WRITE writes and marks the slots of its run in the staging page and nothing else, and replies with the number
of slots marked; its refusals are NOT_ACTIVE, BUSY, BAD_ARG and BAD_LENGTH in this order (R121). -/
def Obligations.PageWriteWritesTheRun : Prop :=
  ∀ (p : Port) (e : Nat) (first count : Byte) (entries : List Byte) (s : State) (good : Prop),
    s.takenLevel p (.pageWrite p first count entries) = some e →
    (good ↔ 1 ≤ count.toNat ∧ count.toNat ≤ 12 ∧ first.toNat + count.toNat ≤ 48) →
    (s.tfs.staging = none →
      exec (.pageWrite p first count entries) s = .next ((Answer.refuse .notActive s).send p)) ∧
    (∀ st : Staging, s.tfs.staging = some st →
      (st.owner ≠ p → exec (.pageWrite p first count entries) s = .next ((Answer.refuse .busy s).send p)) ∧
      (st.owner = p → ¬ good →
        exec (.pageWrite p first count entries) s = .next ((Answer.refuse .badArg s).send p)) ∧
      (st.owner = p → good → entries.length ≠ 6 * count.toNat →
        exec (.pageWrite p first count entries) s = .next ((Answer.refuse .badLength s).send p)) ∧
      (st.owner = p → good → entries.length = 6 * count.toNat →
        ∃ (t : State) (pg : Page),
          exec (.pageWrite p first count entries) s =
            .next ((Answer.mk .ok (.slotsWritten (pg.written.toList.filter (·)).length) t).send p) ∧
          t = { s with tfs := { s.tfs with pages := put s.tfs.pages st.page pg } } ∧
          pg = { s.page st.page with slots := pg.slots, written := pg.written } ∧
          ∀ i : Fin 48,
            (∀ k : Nat, k < count.toNat → i.val = first.toNat + k →
              pg.written[i.val] = true ∧
              pg.slots[i.val] =
                ⟨(entries.getD (6 * k) 0).toNat * 256 + (entries.getD (6 * k + 1) 0).toNat,
                  (entries.getD (6 * k + 2) 0).toNat * 256 + (entries.getD (6 * k + 3) 0).toNat,
                  (entries.getD (6 * k + 4) 0).toNat * 256 + (entries.getD (6 * k + 5) 0).toNat⟩) ∧
            (i.val < first.toNat ∨ first.toNat + count.toNat ≤ i.val →
              pg.written[i.val] = (s.page st.page).written[i.val] ∧
              pg.slots[i.val] = (s.page st.page).slots[i.val])))

/-- A PAGE_PUBLISH that passes its checks: each named plan names the staging page at the level given and the others
keep their entries; the staging page is PUBLISHED with its contents and pins, and the staging state closed; each page
that a named plan named before stays as it is while some entry still names it, and otherwise becomes RETIRED when
pinned and FREE, cleared, when not. Every other page stands, the reply lists each old page with its state, and nothing
else changes. The refusals are NOT_ACTIVE, BUSY, BAD_ARG, DENIED and INCOMPLETE in this order, the last with the
lowest slot not written and the number written (R123, R124, R126). PLAN_CLEAR makes the entry absent and judges the
page it named in the same way; the reply gives the page and its state, and nothing else changes. A plan above 15 gives
BAD_ARG, a protected plan above level 0 DENIED, an absent entry NOT_ACTIVE (R125, R126). That bit n of a plan set marks
plan n is the model's reading (assumption 21). -/
def Obligations.PagePublishMovesTheDirectory : Prop :=
  (∀ (p : Port) (e : Nat) (plans : Word16) (level : Byte) (s : State) (pg : PageId),
    s.takenLevel p (.pagePublish p plans level) = some e → s.tfs.staging = some ⟨pg, p⟩ → plans ≠ 0 →
    level.toNat ≤ 2 → (e = 0 ∨ s.settings.protectedPlans &&& plans = 0) →
    (∀ i : Fin 48, (s.page pg).written[i.val] = true) →
    ∃ (t : State) (old : List (PageId × PageState)),
      exec (.pagePublish p plans level) s = .next ((Answer.mk .ok (.published pg old) t).send p) ∧
      t = { s with tfs := t.tfs } ∧ t.tfs.staging = none ∧
      (∀ q : PlanId, t.plan q = if plans.getLsbD q.val then some ⟨pg, level.toNat⟩ else s.plan q) ∧
      t.page pg = { s.page pg with state := .published } ∧
      (∀ x : PageId, x ≠ pg →
        t.page x =
          if (∃ q : PlanId, plans.getLsbD q.val = true ∧ (s.plan q).map (·.page) = some x) ∧
              ¬ ∃ q : PlanId, (t.plan q).map (·.page) = some x then
            (if 0 < (s.page x).pins then { s.page x with state := .retired } else Page.cleared)
          else s.page x) ∧
      (∀ x st, (x, st) ∈ old ↔
        (∃ q : PlanId, plans.getLsbD q.val = true ∧ (s.plan q).map (·.page) = some x) ∧ st = (t.page x).state) ∧
      (old.map (·.1)).Pairwise (· < ·)) ∧
  (∀ (p : Port) (e : Nat) (plans : Word16) (level : Byte) (s : State),
    s.takenLevel p (.pagePublish p plans level) = some e →
    (s.tfs.staging = none → exec (.pagePublish p plans level) s = .next ((Answer.refuse .notActive s).send p)) ∧
    (∀ st : Staging, s.tfs.staging = some st →
      (st.owner ≠ p → exec (.pagePublish p plans level) s = .next ((Answer.refuse .busy s).send p)) ∧
      (st.owner = p → (plans = 0 ∨ 2 < level.toNat) →
        exec (.pagePublish p plans level) s = .next ((Answer.refuse .badArg s).send p)) ∧
      (st.owner = p → plans ≠ 0 → level.toNat ≤ 2 → 0 < e → s.settings.protectedPlans &&& plans ≠ 0 →
        exec (.pagePublish p plans level) s = .next ((Answer.refuse .denied s).send p)) ∧
      (∀ i : Fin 48, st.owner = p → plans ≠ 0 → level.toNat ≤ 2 →
        (e = 0 ∨ s.settings.protectedPlans &&& plans = 0) →
        (s.page st.page).written[i.val] = false →
        (∀ k : Fin 48, k < i → (s.page st.page).written[k.val] = true) →
        exec (.pagePublish p plans level) s =
          .next ((Answer.same .incomplete
            (.unwritten i.val ((s.page st.page).written.toList.filter (·)).length) s).send p)))) ∧
  (∀ (p : Port) (e : Nat) (x : Byte) (s : State), s.takenLevel p (.planClear p x) = some e →
    (15 < x.toNat → exec (.planClear p x) s = .next ((Answer.refuse .badArg s).send p)) ∧
    (∀ q : PlanId, x.toNat = q.val →
      (s.settings.protectedPlans.getLsbD q.val = true → 0 < e →
        exec (.planClear p x) s = .next ((Answer.refuse .denied s).send p)) ∧
      (s.settings.protectedPlans.getLsbD q.val = false ∨ e = 0 →
        (s.plan q = none → exec (.planClear p x) s = .next ((Answer.refuse .notActive s).send p)) ∧
        (∀ (entry : PlanEntry) (pg : Page), s.plan q = some entry →
          pg = (if ∃ o : PlanId, o ≠ q ∧ (s.plan o).map (·.page) = some entry.page then s.page entry.page
            else if 0 < (s.page entry.page).pins then { s.page entry.page with state := .retired }
            else Page.cleared) →
          exec (.planClear p x) s =
            .next ((Answer.mk .ok (.cleared entry.page pg.state)
              { s with
                tfs := { s.tfs with
                  plans := put s.tfs.plans q none
                  pages := put s.tfs.pages entry.page pg } }).send p)))))

/-! ## Pricing -/

/-- The members of a chain are found from its head by the back-links. A segment costs N / 10^8 cents rounded half up,
and never less after a delta is added to it. The idle fee is the idle rate for each full 600 s past the grace, or the
idle cap when the cap is present and the product is above it. A chain's metered Wh are the sum over its members, and
its running cost estimate the costs of every segment of every member, each rounded on its own, plus the idle fee of
its idle seconds under the page its root has pinned (R78, R101, R140–R143). -/
def Obligations.CostsAndFees : Prop :=
  (∀ (g : Segment) (n : Nat),
    n = g.solar * g.triple.solar + g.battery * g.triple.battery + g.grid * g.triple.grid →
    100000000 * g.cost ≤ n + 50000000 ∧ n + 50000000 < 100000000 * (g.cost + 1) ∧
    ∀ (e : Nat) (x : Shares), g.cost ≤ (g.add e x).cost) ∧
  (∀ (pg : Page) (seconds periods : Nat),
    600 * periods ≤ seconds - 60 * pg.idleGrace → seconds - 60 * pg.idleGrace < 600 * (periods + 1) →
    (pg.idleCap = none → pg.idleFee seconds = pg.idleRate * periods) ∧
    (∀ cap, pg.idleCap = some cap →
      pg.idleFee seconds = if cap < pg.idleRate * periods then cap else pg.idleRate * periods)) ∧
  (∀ (s : State) (members : List RecordId) (root head : RecordId) (pg : PageId), s.IsChain members head →
    members.head? = some root → (s.record root).page = some pg →
    s.chain head = members ∧ s.chainMetered head = (members.map fun q => (s.record q).metered).sum ∧
    s.estimate head =
      ((members.flatMap fun q => (s.record q).segments).map Segment.cost).sum +
        (s.page pg).idleFee ((members.map fun q => (s.record q).idleMs).sum / 1000))

/-! ## The bay link -/

/-- STAGE_SLOTS replaces the two staged masks of the named bay with any values and changes nothing else, whether or
not a commit is pending; a bay above 15 gives BAD_ARG and leaves everything (R4). -/
def Obligations.StageSlotsReplacesTheMasks : Prop :=
  (requestRow .stageSlots).level = 1 ∧
  ∀ (p : Port) (e : Nat) (x : Byte) (down : Word16) (up : Word32) (s : State),
    s.takenLevel p (.stageSlots p x down up) = some e →
    (∀ b : BayId, x.toNat = b.val →
      exec (.stageSlots p x down up) s =
        .next ((Answer.mk .ok .nothing
          { s with blc := { s.blc with staged := put s.blc.staged b ⟨down, up⟩ } }).send p)) ∧
    (15 < x.toNat → exec (.stageSlots p x down up) s = .next ((Answer.refuse .badArg s).send p))

/-- COMMIT_SCHEDULE expands the staged copy bay by bay; when no link slot has two owners the expanded copy becomes the
pending copy and nothing else changes, and otherwise the reply is CONFLICT with the lowest clashing slot, downstream
before upstream, and the two lowest bays that hold it, and nothing changes (R3, R5). -/
def Obligations.CommitScheduleChecksTheSlots : Prop :=
  ∀ (p : Port) (e : Nat) (s : State) (copy : Vector Masks 16), s.takenLevel p (.commitSchedule p) = some e →
    (∀ b : BayId, copy[b.val] =
      if s.settings.enabled[b.val] = false then ⟨0, 0⟩
      else if s.blc.staged[b.val] = ⟨0, 0⟩ then ⟨1#16 <<< b.val, 3#32 <<< (2 * b.val)⟩
      else s.blc.staged[b.val]) →
    (NoClashBelow copy true 16 → NoClashBelow copy false 32 →
      exec (.commitSchedule p) s =
        .next ((Answer.mk .ok .nothing { s with blc := { s.blc with pendingCopy := some copy } }).send p)) ∧
    (∀ slot first second, LowestClash copy true slot first second →
      exec (.commitSchedule p) s = .next ((Answer.same .conflict (.clash true slot first second) s).send p)) ∧
    (∀ slot first second, NoClashBelow copy true 16 → LowestClash copy false slot first second →
      exec (.commitSchedule p) s = .next ((Answer.same .conflict (.clash false slot first second) s).send p))

/-- A sweep start closes the ended sweep, applies the pending commit, takes the grant source and counts the sweep. A
bay scheduled before and after keeps its link state, unless it was missed and its miss count has reached the silent
threshold; a bay unscheduled by the commit becomes ABSENT and one newly scheduled SCHEDULED_WAIT, each with miss count
0. The SILENT events of the bays that went from ONLINE to SILENT and then the UNSCHEDULED events of the bays that the
commit unscheduled reach the session manager, each in bay order, and no other bay hands it anything. The bays' reports
and counters, the tariffs, the receipts, the meters and the settings stand (R1, R2, R6, R14). -/
def Obligations.SweepStartSteps : Prop :=
  ∀ (s told : State) (new : Vector Masks 16) (missed : BayId → Bool) (count : BayId → Nat) (silent gone : List BayId),
    new = s.blc.pendingCopy.getD s.blc.active →
    (∀ b, missed b = (s.blc.sweepBegun && s.scheduled b && !s.blc.heard[b.val])) →
    (∀ b, count b = if missed b then min 255 ((s.bay b).missCount + 1) else (s.bay b).missCount) →
    silent = (allBays.filter fun b =>
      missed b = true ∧ (s.bay b).link = .online ∧ s.settings.silentThreshold ≤ count b) →
    gone = (allBays.filter fun b => s.scheduled b = true ∧ new[b.val].scheduled = false) →
    told = (silent.map (·, SuspensionReason.silent) ++ gone.map (·, SuspensionReason.unscheduled)).foldl
      (fun u x => u.lossEvent x.1 x.2) s →
    ∃ t, exec .sweepStart s = .next t ∧ t.ssm = told.ssm ∧ t.mpt = told.mpt ∧
      t.blc = { s.blc with
        bays := t.blc.bays
        active := new
        pendingCopy := none
        grantSource := s.ale.current
        sweepNumber := if s.blc.sweepBegun then s.blc.sweepNumber + 1 else s.blc.sweepNumber
        sweepBegun := true
        sweepPeriodTaken := s.settings.sweepPeriod
        heard := Vector.replicate 16 false } ∧
      t.clc = s.clc ∧ t.ale = s.ale ∧ t.tfs = s.tfs ∧ t.rcq = s.rcq ∧ t.ivm = s.ivm ∧ t.sst = s.sst ∧
      t.lines = s.lines ∧
      ∀ b : BayId,
        t.bay b = { s.bay b with
          link := (t.bay b).link, missCount := (t.bay b).missCount, session := (told.bay b).session } ∧
        (s.scheduled b = true → new[b.val].scheduled = true →
          (t.bay b).missCount = count b ∧
          (t.bay b).link =
            if missed b = true ∧ s.settings.silentThreshold ≤ count b ∧
                ((s.bay b).link = .online ∨ (s.bay b).link = .scheduledWait) then .silent
            else (s.bay b).link) ∧
        (s.scheduled b = true → new[b.val].scheduled = false →
          (t.bay b).missCount = 0 ∧ (t.bay b).link = .absent) ∧
        (s.scheduled b = false → new[b.val].scheduled = true →
          (t.bay b).missCount = 0 ∧ (t.bay b).link = .scheduledWait) ∧
        (s.scheduled b = false → new[b.val].scheduled = false →
          (t.bay b).missCount = (s.bay b).missCount ∧ (t.bay b).link = (s.bay b).link)

/-- In a downstream link slot of a bay one GRANT frame is sent: bay, grant, display code and sweep number mod 256, ten
bytes in all. The grant is the lesser of the bay's grant in the grant source and its held request, and 0 under each
zero-grant condition; the code is the first row of the table that holds. The grant is kept as the grant last sent and
nothing else changes. A slot of no bay changes nothing (R1, R9, R18, R19). -/
def Obligations.GrantFrameFollowsTheTables : Prop :=
  ∀ (slot : Fin 16) (s : State),
    (∀ b : BayId, s.OwnsDown slot b →
      ∃ (g : Nat) (code : DisplayCode),
        exec (.grant slot) s = .next { s with
          blc := { s.blc with bays := put s.blc.bays b { s.bay b with grantLastSent := g } }
          lines := { s.lines with
            bayLink := some (lineFrame 0x3#4 [BitVec.ofNat 8 b.val, BitVec.ofNat 8 (g / 256), BitVec.ofNat 8 g,
              code.value, BitVec.ofNat 8 s.blc.sweepNumber.toNat]) } } ∧
        (s.blc.grantSource = none ∨ (s.bay b).link ≠ .online ∨ s.liveIn b .active = false ∨
          (s.bay b).lastStatus.vehicle ≠ .demanding → g = 0) ∧
        (∀ set : GrantSet, s.blc.grantSource = some set → (s.bay b).link = .online → s.liveIn b .active = true →
          (s.bay b).lastStatus.vehicle = .demanding →
          g = if set.grants[b.val] = 0 then 0 else min set.grants[b.val] (s.bay b).lastStatus.heldRequest) ∧
        code =
          (if (s.bay b).link ≠ .online ∨ s.now = none then .unavailable
          else if (s.bay b).reservedFor ≠ none then .reserved
          else if s.liveIn b .pending = true then .awaitingAuth
          else if s.liveIn b .active = true ∧ 0 < g then .charging
          else if s.liveIn b .active = true ∨ s.liveIn b .suspended = true ∨ s.liveIn b .transferring = true then .paused
          else if s.ssm.endedLatch[b.val] = true then .ended
          else .idle)) ∧
    ((∀ b : BayId, (s.activeMasks b).down.getLsbD slot.val = false) → exec (.grant slot) s = .next s)

/-- A STATUS frame or a METER frame that a charge point sends is heard as its fields, whatever stands after it in the
slot and whatever bytes without a preamble byte stand before it; one wrong bit in its header is corrected and marked.
Two wrong bits in the header of either discard it, and so do another CRC and an end of the slot anywhere within the
frame; a slot with no preamble byte holds no frame (R1, R9–R12, R189; that a slot which ends on the first preamble
byte holds an incomplete frame is the model's reading, assumption 10). -/
def Obligations.FramesAreHeard : Prop :=
  ∀ (before after : List Byte), (0x7E : Byte) ∉ before → upstream before = .nothing ∧
    (∀ (vehicle : VehicleState) (requested : Word16) (fault : Byte) (token : Option Token) (header : Byte)
        (rest : List Byte),
      statusFrame vehicle requested fault token = 0x7E :: 0x81 :: header :: rest →
      header = 0x2D ∧ rest.length = 23 ∧
      upstream (before ++ 0x7E :: 0x81 :: header :: rest ++ after) =
        .status false ⟨vehicle, requested.toNat, fault, token⟩ ∧
      (∀ i : Fin 8, upstream (before ++ 0x7E :: 0x81 :: (header ^^^ (1#8 <<< i.val)) :: rest ++ after) =
        .status true ⟨vehicle, requested.toNat, fault, token⟩) ∧
      (∀ i j : Fin 8, i ≠ j →
        upstream (before ++ 0x7E :: 0x81 :: (header ^^^ (1#8 <<< i.val) ^^^ (1#8 <<< j.val)) :: rest ++ after) =
          .discarded) ∧
      (∀ (body : List Byte) (high low x y : Byte), rest = body ++ [high, low] → (x, y) ≠ (high, low) →
        upstream (before ++ 0x7E :: 0x81 :: header :: body ++ [x, y] ++ after) = .discarded) ∧
      (∀ n : Nat, 1 ≤ n → n < 26 →
        upstream (before ++ (0x7E :: 0x81 :: header :: rest).take n) = .discarded)) ∧
    (∀ (counter power : Word32) (header : Byte) (rest : List Byte),
      meterFrame counter power = 0x7E :: 0x81 :: header :: rest →
      header = 0x33 ∧ rest.length = 10 ∧
      upstream (before ++ 0x7E :: 0x81 :: header :: rest ++ after) = .meter false ⟨counter, power.toInt⟩ ∧
      (∀ i : Fin 8, upstream (before ++ 0x7E :: 0x81 :: (header ^^^ (1#8 <<< i.val)) :: rest ++ after) =
        .meter true ⟨counter, power.toInt⟩) ∧
      (∀ i j : Fin 8, i ≠ j →
        upstream (before ++ 0x7E :: 0x81 :: (header ^^^ (1#8 <<< i.val) ^^^ (1#8 <<< j.val)) :: rest ++ after) =
          .discarded) ∧
      (∀ (body : List Byte) (high low x y : Byte), rest = body ++ [high, low] → (x, y) ≠ (high, low) →
        upstream (before ++ 0x7E :: 0x81 :: header :: body ++ [x, y] ++ after) = .discarded) ∧
      (∀ n : Nat, 1 ≤ n → n < 13 →
        upstream (before ++ (0x7E :: 0x81 :: header :: rest).take n) = .discarded))

/-- A valid STATUS in a bay's slot raises one of the bay's counters. On a scheduled bay it first makes the bay ONLINE
with miss count 0 and marks it heard; then the SSM takes the effective report; then the report is stored with the
present time as last STATUS. On an unscheduled bay the counter is all that changes (R12, R13, R15). -/
def Obligations.StatusStoresTheReport : Prop :=
  ∀ (slot : Fin 32) (b : BayId) (heard : List Byte) (corrected : Bool) (f : StatusFrame) (s : State) (counted : Bay),
    s.OwnsUp slot b → upstream heard = .status corrected f →
    counted = (if corrected then { s.bay b with correctedFrames := (s.bay b).correctedFrames + 1 }
      else { s.bay b with goodFrames := (s.bay b).goodFrames + 1 }) →
    (s.scheduled b = false →
      exec (.status slot heard) s = .next { s with blc := { s.blc with bays := put s.blc.bays b counted } }) ∧
    (∀ (report : Report) (online : State), s.scheduled b = true →
      online = { s with
        blc := { s.blc with
          bays := put s.blc.bays b { counted with link := .online, missCount := 0 }
          heard := put s.blc.heard b true } } →
      report.vehicle = (if f.vehicle = .demanding ∧ f.requested = 0 then .plugged else f.vehicle) →
      report.heldRequest =
        (if f.requested = 0 then 0
        else if f.requested < 60 then 60
        else min (min f.requested s.settings.cableRating[b.val]) 320) →
      report.faultCode = f.faultCode → report.token = f.token →
      ∃ t : State, t = online.statusEvent b report (s.bay b).lastStatus (s.bay b).lastStatusTime ∧
        exec (.status slot heard) s = .next { t with
          blc := { t.blc with
            bays := put t.blc.bays b { t.bay b with lastStatus := report, lastStatusTime := s.now } } })

/-- A STATUS event on a bay with no live record that is not reserved: PLUGGED or DEMANDING with a token, the
ended-latch clear and the clock set, raises a request. The first FREE record goes to PENDING with its deadline,
becomes the bay's live record, and AUTH_REQUEST is handed over; with no FREE record NO_CONTEXT is handed over once.
Any other report raises nothing, and UNPLUGGED clears the bay's ended-latch, its no-context mark and its
foreign-vehicle mark. Nothing else changes (R77, R79, R81, R82, R88). That a PENDING record's charge state is WAITING
is the model's choice (assumption 17). -/
def Obligations.ReportsRaiseRequests : Prop :=
  ∀ (s : State) (b : BayId) (report previous : Report) (before : Option SiteTime) (asks : Prop),
    (s.bay b).session = none → (s.bay b).reservedFor = none →
    (asks ↔ (report.vehicle = .plugged ∨ report.vehicle = .demanding) ∧ report.token ≠ none ∧
      s.ssm.endedLatch[b.val] = false ∧ s.now ≠ none) →
    (report.vehicle = .unplugged → s.statusEvent b report previous before = s.unmarked b) ∧
    (¬ asks → report.vehicle ≠ .unplugged → s.statusEvent b report previous before = s) ∧
    (∀ (r : RecordId) (deadline : Option SiteTime), asks → s.freeRecord = some r →
      deadline = s.now.map (·.later (1000 * s.settings.authorisationTimeout)) →
      s.statusEvent b report previous before =
        { s.notify (.authRequest b (r.val + 1) report.token deadline) with
          ssm := { s.ssm with
            allocPointer := r + 1
            records := put s.ssm.records r
              { Record.cleared with
                state := .pending, bay := b, token := report.token, depth := 1, charge := .waiting
                authDeadline := deadline } }
          blc := { s.blc with bays := put s.blc.bays b { s.bay b with session := some r } } }) ∧
    (asks → s.freeRecord = none →
      s.statusEvent b report previous before =
        if s.ssm.noContextMark[b.val] then s
        else { s.notify (.bayNoContext b) with
          ssm := { s.ssm with noContextMark := put s.ssm.noContextMark b true } })

/-- What a report does to the live record of a bay that is not reserved. FAULT or UNPLUGGED withdraws a PENDING
record. For an ACTIVE one a report that follows a PLUGGED one first adds the time between the two as idle time, when
the record has metered at least 1 Wh and both times stand; at most 2^32 − 1 ms are kept. A chain that this brings to
one of its caps, by its idle fee, closes with CAP_REACHED and nothing more is done; otherwise FAULT suspends the
record, UNPLUGGED closes its chain, and PLUGGED and DEMANDING change nothing more. A SUSPENDED record resumes on its
own token, and otherwise its chain closes; a TRANSFERRING head takes no notice. An UNPLUGGED report clears the bay's
marks last (R79, R87, R91, R92, R94, R95, R104, R144). That RESUMED carries the record id and the bay is the model's
reading (assumption 24). -/
def Obligations.ReportsMoveTheLiveRecord : Prop :=
  ∀ (s : State) (b : BayId) (r : RecordId) (report previous : Report) (before : Option SiteTime)
    (idle : State),
    (s.bay b).session = some r → (s.bay b).reservedFor = none → (s.record r).bay = b →
    ((s.record r).state = .pending →
      (report.vehicle = .unplugged →
        s.statusEvent b report previous before = (s.withdraw r .unplugged).unmarked b) ∧
      (report.vehicle = .fault → s.statusEvent b report previous before = s.withdraw r .fault) ∧
      (report.vehicle = .plugged ∨ report.vehicle = .demanding → s.statusEvent b report previous before = s)) ∧
    ((s.record r).state = .active →
      previous.vehicle ≠ .plugged ∨ (s.record r).metered = 0 ∨ s.now = none ∨ before = none →
      (report.vehicle = .unplugged →
        s.statusEvent b report previous before = (s.closeChain r .unplugged false).unmarked b) ∧
      (report.vehicle = .fault → s.statusEvent b report previous before = s.suspend r .fault) ∧
      (report.vehicle = .plugged ∨ report.vehicle = .demanding → s.statusEvent b report previous before = s)) ∧
    (∀ now then_ : SiteTime, (s.record r).state = .active → previous.vehicle = .plugged →
      1 ≤ (s.record r).metered → s.now = some now → before = some then_ →
      idle = { s with
        ssm := { s.ssm with
          records := put s.ssm.records r
            { s.record r with
              idleMs := min 4294967295 ((s.record r).idleMs + (now.minus then_).toNat) } } } →
      (¬ idle.AtCap r →
        (report.vehicle = .unplugged →
          s.statusEvent b report previous before = (idle.closeChain r .unplugged false).unmarked b) ∧
        (report.vehicle = .fault → s.statusEvent b report previous before = idle.suspend r .fault) ∧
        (report.vehicle = .plugged ∨ report.vehicle = .demanding →
          s.statusEvent b report previous before = idle)) ∧
      (idle.AtCap r →
        (report.vehicle = .unplugged →
          s.statusEvent b report previous before = (idle.closeChain r .capReached false).unmarked b) ∧
        (report.vehicle ≠ .unplugged →
          s.statusEvent b report previous before = idle.closeChain r .capReached true))) ∧
    ((s.record r).state = .suspended →
      (report.vehicle = .fault → s.statusEvent b report previous before = s) ∧
      (report.vehicle = .unplugged → (s.record r).suspension = some .fault →
        s.statusEvent b report previous before = (s.closeChain r .unplugged false).unmarked b) ∧
      (report.vehicle = .unplugged →
        (s.record r).suspension = some .silent ∨ (s.record r).suspension = some .unscheduled →
        s.statusEvent b report previous before = (s.closeChain r .lost false).unmarked b) ∧
      (report.vehicle = .plugged ∨ report.vehicle = .demanding →
        (report.token = (s.record r).token →
          s.statusEvent b report previous before =
            { s.notify (.session (.resumed r b)) with
              ssm := { s.ssm with
                records := put s.ssm.records r
                  { s.record r with state := .active, resumeDeadline := none, suspension := none } } }) ∧
        (report.token ≠ (s.record r).token →
          s.statusEvent b report previous before = s.closeChain r .lost true))) ∧
    ((s.record r).state = .transferring →
      (report.vehicle = .unplugged → s.statusEvent b report previous before = s.unmarked b) ∧
      (report.vehicle ≠ .unplugged → s.statusEvent b report previous before = s))

/-- A SILENT or UNSCHEDULED event withdraws a PENDING record and suspends an ACTIVE one with a resume deadline of the
present time plus the resume window; it replaces the reason of a SUSPENDED one and nothing else, and a TRANSFERRING
head, a reserved bay and a bay with no live record are left as they are (R87, R94, R104, R105). -/
def Obligations.LossesMoveTheLiveRecord : Prop :=
  ∀ (s : State) (b : BayId) (reason : SuspensionReason),
    (∀ r : RecordId, (s.bay b).session = some r → (s.bay b).reservedFor = none → (s.record r).bay = b →
      ((s.record r).state = .pending →
        ∃ cause : WithdrawCause,
          (reason = .silent → cause = .silent) ∧ (reason = .unscheduled → cause = .unscheduled) ∧
          s.lossEvent b reason =
            { s.notify (.session (.withdrawn r b cause)) with
              ssm := { s.ssm with records := put s.ssm.records r Record.cleared }
              blc := { s.blc with bays := put s.blc.bays b { s.bay b with session := none } } }) ∧
      ((s.record r).state = .active →
        s.lossEvent b reason =
          { s.notify (.session (.suspended r b reason)) with
            ssm := { s.ssm with
              records := put s.ssm.records r
                { s.record r with
                  state := .suspended
                  suspension := some reason
                  resumeDeadline := s.now.map (·.later (1000 * s.settings.resumeWindow))
                  charge := .waiting } } }) ∧
      ((s.record r).state = .suspended →
        s.lossEvent b reason =
          { s with
            ssm := { s.ssm with
              records := put s.ssm.records r { s.record r with suspension := some reason } } }) ∧
      ((s.record r).state = .transferring → s.lossEvent b reason = s)) ∧
    ((s.bay b).reservedFor ≠ none ∨ (s.bay b).session = none → s.lossEvent b reason = s)

/-- A valid METER in a bay's slot raises one of the bay's counters. On a scheduled bay it makes the bay ONLINE, sets the
last power and the last counter, and forms the delta: 0 with no last counter, the difference mod 2^32 up to 100,000,
and 0 with a jump counted above that. A bay whose record is ACTIVE or SUSPENDED hands the delta to the SSM; every other
bay adds it to its unbilled Wh, and nothing else changes (R12, R13, R16, R17). -/
def Obligations.MeterReadsTheCounter : Prop :=
  ∀ (slot : Fin 32) (b : BayId) (heard : List Byte) (corrected : Bool) (f : MeterFrame) (s : State) (counted : Bay),
    s.OwnsUp slot b → upstream heard = .meter corrected f →
    counted = (if corrected then { s.bay b with correctedFrames := (s.bay b).correctedFrames + 1 }
      else { s.bay b with goodFrames := (s.bay b).goodFrames + 1 }) →
    (s.scheduled b = false →
      exec (.meter slot heard) s = .next { s with blc := { s.blc with bays := put s.blc.bays b counted } }) ∧
    (∀ (delta : Nat) (jump : Bool) (read : Bay) (online : State), s.scheduled b = true →
      ((s.bay b).lastCounter = none → delta = 0 ∧ jump = false) →
      (∀ last, (s.bay b).lastCounter = some last → (f.counter - last).toNat ≤ 100000 →
        delta = (f.counter - last).toNat ∧ jump = false) →
      (∀ last, (s.bay b).lastCounter = some last → 100000 < (f.counter - last).toNat → delta = 0 ∧ jump = true) →
      read = { counted with
        link := .online
        missCount := 0
        lastPower := (max 0 (min f.power 2000000)).toNat
        lastCounter := some f.counter
        jumpCount := (s.bay b).jumpCount + if jump then 1 else 0 } →
      online = { s with
        blc := { s.blc with bays := put s.blc.bays b read, heard := put s.blc.heard b true } } →
      (∀ r : RecordId, (s.bay b).session = some r →
        (s.record r).state = .active ∨ (s.record r).state = .suspended →
        exec (.meter slot heard) s = .next (online.meterEvent r delta f.counter)) ∧
      ((∀ r : RecordId, (s.bay b).session = some r →
          (s.record r).state ≠ .active ∧ (s.record r).state ≠ .suspended) →
        exec (.meter slot heard) s = .next { online with
          blc := { online.blc with
            bays := put online.blc.bays b { read with unbilledWh := read.unbilledWh + BitVec.ofNat 32 delta } } }))

/-- A METER event at the SSM moves the record's counter; a delta of 0 does no more. A delta is accounted when the
record holds its triple or fewer than 8 segments, and stays within 2^32 − 1 Wh: the metered Wh rise, and the delta
times the class group's shares is added to the segment of the page's present triple, or opens one at the end of the
list with the present time. Nothing else changes while the chain is below its caps; one that has reached its energy
cap or its cost cap closes with CAP_REACHED. Every other delta needs a ninth triple (R89, R90, R91, R131, R135, R138,
R139, R144). -/
def Obligations.MeterAccountsTheDelta : Prop :=
  ∀ (s : State) (r : RecordId) (e : Nat) (counter : Word32) (pg : PageId) (now : SiteTime) (x : Shares) (k : Triple)
    (accounted : State) (segments : List Segment),
    (s.record r).page = some pg → s.now = some now →
    x = (match s.ale.current with
      | none => ⟨0, 0, 1000⟩
      | some g => if (s.record r).cls = 2 then g.shares2 else g.shares01) →
    (∀ slot : Fin 48, slot.val = now.ms.val / 1800000 → k = (s.page pg).slots[slot.val]) →
    accounted = { s with
      ssm := { s.ssm with
        records := put s.ssm.records r
          { s.record r with
            meterLast := some counter, metered := (s.record r).metered + e, segments := segments } } } →
    (e = 0 → segments = (s.record r).segments → s.meterEvent r e counter = accounted) ∧
    (0 < e → (s.record r).metered + e < 2 ^ 32 →
      (∃ before after g, (s.record r).segments = before ++ g :: after ∧ g.triple = k ∧
        (∀ h ∈ before, h.triple ≠ k) ∧
        segments = before ++ { g with
          solar := g.solar + e * x.solar
          battery := g.battery + e * x.battery
          grid := g.grid + e * x.grid } :: after) ∨
      ((∀ h ∈ (s.record r).segments, h.triple ≠ k) ∧ (s.record r).segments.length < 8 ∧
        segments = (s.record r).segments ++ [⟨k, some now, e * x.solar, e * x.battery, e * x.grid⟩]) →
      (¬ accounted.AtCap r → s.meterEvent r e counter = accounted) ∧
      (accounted.AtCap r →
        s.meterEvent r e counter =
          accounted.closeChain r .capReached ((s.bay (s.record r).bay).lastStatus.vehicle != .unplugged))) ∧
    (0 < e →
      2 ^ 32 ≤ (s.record r).metered + e ∨
        (∀ h ∈ (s.record r).segments, h.triple ≠ k) ∧ 8 ≤ (s.record r).segments.length →
      s.meterEvent r e counter =
        ({ s with
          ssm := { s.ssm with
            records := put s.ssm.records r { s.record r with meterLast := some counter } } } : State).ninthTriple r e
          counter)

/-! ## The canopy line -/

/-- A POLL begins the next period of the cycle and sends one frame of 43 bytes: the period index, the cycle number mod
256, and the ceilings and setpoint of the current grant set, or none each and 0 while there is none. Nothing else
changes. That no period begins past the last one of a cycle is the model's choice (assumption 18; R22, R24, R25). -/
def Obligations.PollSendsTheTargets : Prop :=
  ∀ (s : State) (i : Nat) (ceilings : List (Option Nat)) (setpoint : Int) (frame : List Byte),
    i = (if s.clc.polled then s.clc.periodIndex + 1 else s.clc.periodIndex) →
    (s.ale.current = none → ceilings = List.replicate 8 none ∧ setpoint = 0) →
    (∀ g, s.ale.current = some g → ceilings = g.ceilings.toList ∧ setpoint = g.setpoint) →
    frame = lineFrame 0x9#4 (BitVec.ofNat 8 i :: BitVec.ofNat 8 s.clc.cycleNumber.toNat ::
      ((ceilings.flatMap fun c => beBytes 4 (c.getD 0xFFFFFFFF)) ++ beBytes 4 (setpoint % 4294967296).toNat)) →
    (i < s.clc.periodsTaken →
      exec .poll s = .next { s with
        clc := { s.clc with periodIndex := i, polled := true }
        lines := { s.lines with canopy := some frame } } ∧ frame.length = 43) ∧
    (s.clc.periodsTaken ≤ i → exec .poll s = .next s)

/-- What a reply position makes of the bytes heard in it. A silence is no reply. A reply that its node sends with the
period index in progress is valid, whatever stands after it in the line slot and whatever bytes without a preamble byte
stand before it; one wrong bit in its header is corrected and marked. Two wrong header bits, another CRC, another period
index, the position of another node, and an end of the line slot anywhere within the frame discard it; a line slot that
ends on the frame's first byte is one of these, since a preamble began in it (R11, R24, R26, R38, R189; the last is the
model's reading, assumption 10). -/
def Obligations.RepliesAreJudged : Prop :=
  ∀ (before after : List Byte) (k : NodeId) (period : Nat) (index : Byte) (power discharge charge : Word32)
    (energy : Word16) (sample : Sample) (header high low : Byte) (rest frame : List Byte),
    (0x7E : Byte) ∉ before →
    (k ≠ 8 → frame = sampleFrame k index power ∧ sample = ⟨power.toInt, 0, 0, 0⟩) →
    (k = 8 → frame = batteryFrame index power energy discharge charge ∧
      sample = ⟨power.toInt, energy.toNat, discharge.toNat, charge.toNat⟩) →
    frame = 0x7E :: 0x81 :: header :: rest ++ [high, low] →
    header = (if k = 8 then 0xE1 else if k = 9 then 0x66 else 0xD2) ∧ frame.length = (if k = 8 then 21 else 11) ∧
    lineReply k period before = .silent ∧
    (index.toNat = period →
      lineReply k period (before ++ frame ++ after) = .valid false sample ∧
      (∀ i : Fin 8,
        lineReply k period (before ++ 0x7E :: 0x81 :: (header ^^^ (1#8 <<< i.val)) :: rest ++ [high, low] ++ after) =
          .valid true sample)) ∧
    (index.toNat ≠ period → lineReply k period (before ++ frame ++ after) = .discarded) ∧
    (∀ j : NodeId, j ≠ k → lineReply j period (before ++ frame ++ after) = .discarded) ∧
    (∀ i j : Fin 8, i ≠ j →
      lineReply k period (before ++ 0x7E :: 0x81 :: (header ^^^ (1#8 <<< i.val) ^^^ (1#8 <<< j.val)) :: rest ++
        [high, low] ++ after) = .discarded) ∧
    (∀ x y : Byte, (x, y) ≠ (high, low) →
      lineReply k period (before ++ 0x7E :: 0x81 :: header :: rest ++ [x, y] ++ after) = .discarded) ∧
    (∀ n : Nat, 1 ≤ n → n < frame.length → lineReply k period (before ++ frame.take n) = .discarded)

/-- Each outcome of a reply position raises one counter of its node, and so does a discarded frame on the bay link for
its bay. A valid reply within the effective window is clamped, summed and counted, and the battery's three other
fields replace its window values; a valid reply outside the window, a discarded frame and a silence change nothing but
the counter (R12, R26, R27, R28, R38). -/
def Obligations.RepliesEnterTheWindow : Prop :=
  ∀ (s : State) (heard : List Byte) (inWindow : Prop) (count : Node → Bool → Node) (sum : Node → Int → Node)
    (write : NodeId → Node → State),
    (inWindow ↔ s.clc.windowFrom ≤ s.clc.periodIndex ∧ s.clc.periodIndex ≤ s.clc.windowTo) →
    (∀ n corrected, count n corrected = if corrected then { n with correctedFrames := n.correctedFrames + 1 }
      else { n with goodFrames := n.goodFrames + 1 }) →
    (∀ n w, sum n w = { n with windowSum := n.windowSum + w, windowCount := n.windowCount + 1 }) →
    (∀ k n, write k n = { s with clc := { s.clc with nodes := put s.clc.nodes k n } }) →
    (∀ (j : Fin 8) (k : NodeId) corrected x, k.val = j.val →
      lineReply k s.clc.periodIndex heard = .valid corrected x →
      (¬ inWindow → exec (.canopySample j heard) s = .next (write k (count (s.node k) corrected))) ∧
      (inWindow → exec (.canopySample j heard) s =
        .next (write k (sum (count (s.node k) corrected) (max 0 (min x.power s.settings.converterRating[j.val])))))) ∧
    (∀ corrected x, lineReply 8 s.clc.periodIndex heard = .valid corrected x →
      (¬ inWindow → exec (.batterySample heard) s = .next (write 8 (count (s.node 8) corrected))) ∧
      (∀ t : State, inWindow →
        t = write 8 (sum (count (s.node 8) corrected) (max (-2000000) (min x.power 2000000))) →
        exec (.batterySample heard) s = .next { t with
          clc := { t.clc with
            battery := { t.clc.battery with
              windowPresent := true
              windowCharge := min x.charge 1000
              windowMaxDischarge := min x.maxDischarge 2000000
              windowMaxCharge := min x.maxCharge 2000000 } } })) ∧
    (∀ corrected x, lineReply 9 s.clc.periodIndex heard = .valid corrected x →
      (¬ inWindow → exec (.meterSample heard) s = .next (write 9 (count (s.node 9) corrected))) ∧
      (inWindow → exec (.meterSample heard) s =
        .next (write 9 (sum (count (s.node 9) corrected) (max (-2000000) (min x.power 2000000)))))) ∧
    (∀ k : NodeId, lineReply k s.clc.periodIndex heard = .discarded →
      exec (.canopyDiscard k heard) s =
        .next (write k { s.node k with discardedFrames := (s.node k).discardedFrames + 1 })) ∧
    (∀ k : NodeId, lineReply k s.clc.periodIndex heard = .silent →
      exec (.noReply k heard) s = .next (write k { s.node k with noReplies := (s.node k).noReplies + 1 })) ∧
    (∀ (slot : Fin 32) (b : BayId), s.OwnsUp slot b → upstream heard = .discarded →
      exec (.discardedFrame slot heard) s = .next { s with
        blc := { s.blc with
          bays := put s.blc.bays b { s.bay b with discardedFrames := (s.bay b).discardedFrames + 1 } } })

/-- A cycle end closes each node's window: a node heard takes its mean, rounded toward zero, and is LIVE; one not heard
is HELD while it has cycles of hold left, and LOST after. One measurement set formed from the node table goes to the
ALE and to the IVM, and the next cycle begins with the settings as they stand and empty windows. Nothing else changes
(R22, R28–R33, R37). That each copy stands in a queue without bound until it is taken, and that a CYCLE_END is taken
at any period, are the model's choices (assumptions 9, 18). -/
def Obligations.CycleEndPublishesTheSet : Prop :=
  ∀ (s : State) (hold : Nat), hold = s.settings.holdCycles →
    ∃ (t : State) (m : MeasurementSet),
      exec .cycleEnd s = .next t ∧
      t = { s with
        clc := t.clc
        ale := { s.ale with inbox := s.ale.inbox ++ [m] }
        ivm := { s.ivm with inbox := s.ivm.inbox ++ [m] } } ∧
      (∀ k : NodeId,
        t.node k = { s.node k with
          standing := (t.node k).standing
          holdCount := (t.node k).holdCount
          mean := (t.node k).mean
          windowSum := 0
          windowCount := 0 } ∧
        (1 ≤ (s.node k).windowCount →
          (t.node k).mean = (s.node k).windowSum.tdiv (s.node k).windowCount ∧ (t.node k).standing = .live ∧
            (t.node k).holdCount = hold) ∧
        ((s.node k).windowCount = 0 →
          (t.node k).mean = (s.node k).mean ∧
          (1 ≤ (s.node k).holdCount →
            (t.node k).standing = .held ∧ (t.node k).holdCount = min (s.node k).holdCount hold - 1) ∧
          ((s.node k).holdCount = 0 → (t.node k).standing = .lost ∧ (t.node k).holdCount = 0))) ∧
      t.clc.battery = { s.clc.battery with
        windowPresent := false
        charge := if s.clc.battery.windowPresent then s.clc.battery.windowCharge else s.clc.battery.charge
        maxDischarge :=
          if s.clc.battery.windowPresent then s.clc.battery.windowMaxDischarge else s.clc.battery.maxDischarge
        maxCharge := if s.clc.battery.windowPresent then s.clc.battery.windowMaxCharge else s.clc.battery.maxCharge } ∧
      t.clc.cycleNumber = s.clc.cycleNumber + 1 ∧ t.clc.periodIndex = 0 ∧ t.clc.polled = false ∧
      t.clc.periodsTaken = s.settings.periodsPerCycle ∧ t.clc.lengthTaken = s.settings.periodLength ∧
      t.clc.windowTo = min s.settings.windowStop (s.settings.periodsPerCycle - 1) ∧
      t.clc.windowFrom = min s.settings.windowStart t.clc.windowTo ∧
      m.cycle = s.clc.cycleNumber ∧ m.duration = s.clc.periodsTaken * s.clc.lengthTaken ∧ m.endTime = s.now ∧
      (∀ (j : Fin 8) (k : NodeId), k.val = j.val →
        m.canopyMeans[j.val] = if (t.node k).standing = .lost then 0 else (t.node k).mean.toNat) ∧
      m.solar = m.canopyMeans.toList.sum ∧
      m.battery = (if (t.node 8).standing = .lost then 0 else (t.node 8).mean) ∧
      m.charge = t.clc.battery.charge ∧
      m.maxDischarge = (if (t.node 8).standing = .lost then 0 else t.clc.battery.maxDischarge) ∧
      m.maxCharge = (if (t.node 8).standing = .lost then 0 else t.clc.battery.maxCharge) ∧
      m.grid = (if (t.node 9).standing = .lost then 0 else (t.node 9).mean) ∧
      (∀ k : NodeId, m.held[k.val] = decide ((t.node k).standing = .held) ∧
        m.lost[k.val] = decide ((t.node k).standing = .lost)) ∧
      (m.meterLost = true ↔ (t.node 9).standing = .lost)

/-! ## The site budget -/

/-- CURTAIL installs the overlay with the limit, at most 2,000,000 W, and the duration on the crystal, replacing an
active one, and is answered CLAMPED when the limit was above it; a duration of 0 or above 86,400 s gives BAD_ARG.
CURTAIL_END removes an active overlay and gives NOT_ACTIVE with none. An overlay whose duration has run down is
removed by its expiry and stands until then. No notice is sent and nothing else changes (R41, R42). That an expiry
command with time left does nothing is the model's choice (assumption 11), and so is the way time passes (assumption
4). -/
def Obligations.CurtailmentComesAndGoes : Prop :=
  ∀ s : State,
    (∀ (p : Port) (e : Nat) (limit duration : Word32), s.takenLevel p (.curtail p limit duration) = some e →
      (duration = 0 ∨ 86400 < duration.toNat →
        exec (.curtail p limit duration) s = .next ((Answer.refuse .badArg s).send p)) ∧
      (1 ≤ duration.toNat → duration.toNat ≤ 86400 →
        exec (.curtail p limit duration) s =
          .next ((Answer.mk (if limit.toNat ≤ 2000000 then .ok else .clamped) .nothing
            { s with
              ale := { s.ale with
                overlay := some ⟨min limit.toNat 2000000, 1000 * duration.toNat⟩ } }).send p))) ∧
    (∀ (p : Port) (e : Nat), s.takenLevel p (.curtailEnd p) = some e →
      (s.ale.overlay = none → exec (.curtailEnd p) s = .next ((Answer.refuse .notActive s).send p)) ∧
      (s.ale.overlay ≠ none →
        exec (.curtailEnd p) s =
          .next ((Answer.mk .ok .nothing { s with ale := { s.ale with overlay := none } }).send p))) ∧
    (∀ o : Overlay, s.ale.overlay = some o →
      (o.remainingMs = 0 →
        exec .curtailmentExpiry s = .next { s with ale := { s.ale with overlay := none } }) ∧
      (0 < o.remainingMs → exec .curtailmentExpiry s = .next s))

/-- An allocation takes the oldest measurement set waiting and makes the grant set formed from it current, the one
before it previous. The terms of the grant set follow the budget's equations. The shed stack, the unlisted set and the
overflow count are those of the stack update; every bay's last grant is its grant in the set, and its recorded session
start number that of its record when it was eligible. The records change in their charge state alone, and nothing else
changes but the notices handed over (R39, R40, R44–R49, R51, R72). That sets wait in a queue, the oldest first, is the
model's choice (assumption 9), and so is it that nothing happens with none waiting (assumption 11). -/
def Obligations.AllocationFormsTheGrantSet : Prop :=
  (∀ s : State, s.ale.inbox = [] → exec .allocation s = .next s) ∧
  ∀ (s : State) (m : MeasurementSet) (rest : List MeasurementSet), s.ale.inbox = m :: rest →
    ∃ (t : State) (g : GrantSet) (z : Shedding),
      exec .allocation s = .next t ∧ g = s.newGrantSet m ∧ z = s.newShedding m ∧
      t = { s with blc := t.blc, ale := t.ale, ssm := t.ssm, mpt := t.mpt } ∧
      t.ale =
        { inbox := rest
          current := some g
          previous := s.ale.current
          overlay := s.ale.overlay
          importLatch := g.importLatch
          meterLostLatch := m.meterLost
          shedStack := z.stack
          unlisted := z.unlisted
          overflowCount := z.overflow } ∧
      t.blc = { s.blc with bays := t.blc.bays } ∧
      (∀ b : BayId, t.bay b = { s.bay b with
        lastGrant := g.grants[b.val]
        shedPlace := (t.bay b).shedPlace
        shedSince := (t.bay b).shedSince
        recordedStart := (s.eligible b).map (·.seq) }) ∧
      t.ssm = { s.ssm with records := t.ssm.records } ∧
      (∀ r : RecordId, t.record r = { s.record r with charge := (t.record r).charge } ∧
        ((s.record r).state ≠ .active → t.record r = s.record r)) ∧
      g.sequence = m.cycle ∧
      g.glim = ((s.ale.overlay.map (·.limit)).toList ++ s.guard.toList).foldl min s.settings.importLimit ∧
      g.chargers = ((allBays.filter fun b => (s.bay b).link = .online).map fun b => (s.bay b).lastPower).sum ∧
      (g.shopLoad : Int) = max 0 (min 2000000 (m.grid + m.solar + m.battery - g.chargers)) ∧
      g.headroom = (g.glim : Int) - s.settings.margin - g.shopLoad ∧
      g.maxDischarge = (if m.lost[8] = true ∨ m.charge ≤ s.settings.reserveFloor then 0 else m.maxDischarge) ∧
      g.maxCharge = (if m.lost[8] = true ∨ s.settings.chargeStop ≤ m.charge then 0 else m.maxCharge) ∧
      g.setpoint = max (-(m.maxCharge : Int)) (min ((g.discharge : Int) - g.charge) m.maxDischarge) ∧
      g.solar01 = min (m.solar - g.granted2) g.granted01 ∧
      g.battery01 = min g.discharge (g.granted01 - g.solar01) ∧
      g.grid01 = g.granted01 - g.solar01 - g.battery01 ∧
      g.shares01.solar = (if g.granted01 = 0 then 0 else 1000 * g.solar01 / g.granted01) ∧
      g.shares01.battery = (if g.granted01 = 0 then 0 else 1000 * g.battery01 / g.granted01) ∧
      g.shares01.solar + g.shares01.battery + g.shares01.grid = 1000 ∧ g.shares2 = ⟨1000, 0, 0⟩ ∧
      (m.meterLost = false →
        (g.discharge : Int) = min (g.maxDischarge : Int) (max 0 ((g.demand01 : Int) - (g.headroom + m.solar))) ∧
        (g.pool01 : Int) = max 0 (g.headroom + m.solar + g.discharge) ∧
        g.pool2 = m.solar - g.shopLoad - g.granted01 ∧
        g.charge = (if g.discharge = 0 then min g.maxCharge (m.solar - g.shopLoad - g.granted01 - g.granted2) else 0) ∧
        g.exportPlanned = m.solar - g.shopLoad - g.granted01 - g.granted2 - g.charge ∧
        (g.importLatch = true ↔ g.headroom + m.solar + g.maxDischarge < 0)) ∧
      (m.meterLost = true →
        g.discharge = 0 ∧ g.pool01 = s.settings.fallbackPool ∧ g.pool2 = 0 ∧ g.charge = 0 ∧ g.exportPlanned = 0 ∧
        g.importLatch = s.ale.importLatch)

/-- What an allocation reads of the site. A bay is eligible when it is ONLINE, scheduled, DEMANDING and has an ACTIVE
record, with the lesser of its held request and its cable rating as request and 23 W per phase and dA as weight; the
class 0/1 demand is the sum over the eligible bays of classes 0 and 1. The guard is the energy left of the target over
the time left, and invalid with the clock unset or the target off. The limit source is the first term that gives the
least limit. With the export planned at or below the export limit no ceiling stands; above it the ceilings share the
total ceiling out by the canopy means; with the meter lost they are carried over, and no ceiling stands when no grant
set exists. The flags are those of the set and of the overlay (R40, R43, R47, R50, R53, R54, R57, R174; the flag of
carried ceilings is the model's reading, assumption 24). -/
def Obligations.TermsFollowTheSite : Prop :=
  ∀ (s : State) (m : MeasurementSet) (g : GrantSet), g = s.newGrantSet m →
    (∀ (b : BayId) (x : Eligible), s.eligible b = some x ↔
      ∃ r : RecordId, (s.bay b).session = some r ∧ (s.record r).state = .active ∧ (s.bay b).link = .online ∧
        (s.activeMasks b).down ≠ 0 ∧ (s.activeMasks b).up ≠ 0 ∧ (s.bay b).lastStatus.vehicle = .demanding ∧
        x = ⟨b, (s.record r).cls, (s.record r).startSeq.getD 0,
          min (s.bay b).lastStatus.heldRequest s.settings.cableRating[b.val], 23 * s.settings.phases[b.val]⟩) ∧
    g.demand01 =
      (((allBays.filterMap s.eligible).filter fun x => x.cls = 0 ∨ x.cls = 1).map fun x => x.req * x.weight).sum ∧
    (s.now = none ∨ s.settings.demandTarget = 0 → g.guard = none) ∧
    (∀ (now : SiteTime) (i : Interval) (cycle : Nat), s.now = some now → s.ivm.current = some i →
      1 ≤ s.settings.demandTarget →
      cycle = s.ivm.lastCycle.getD (s.settings.periodsPerCycle * s.settings.periodLength) →
      g.guard = some (min 2000000
        ((s.settings.demandTarget * (i.stop.minus i.start).toNat - i.acc.imported) /
          max cycle (i.stop.minus now).toNat))) ∧
    (g.source = .setting ↔
      (∀ o, s.ale.overlay = some o → s.settings.importLimit ≤ o.limit) ∧
        ∀ v, g.guard = some v → s.settings.importLimit ≤ v) ∧
    (g.source = .curtail ↔ ∃ o, s.ale.overlay = some o ∧ o.limit < s.settings.importLimit ∧
      ∀ v, g.guard = some v → o.limit ≤ v) ∧
    (g.source = .guard ↔ ∃ v, g.guard = some v ∧ v < s.settings.importLimit ∧
      ∀ o, s.ale.overlay = some o → v < o.limit) ∧
    (m.meterLost = false → (∀ limit, s.settings.exportLimit = some limit → g.exportPlanned ≤ limit) →
      g.totalCeiling = none ∧ g.ceilings = Vector.replicate 8 none ∧ g.exportLimited = false ∧
        g.ceilingsCarried = false) ∧
    (∀ limit : Nat, m.meterLost = false → s.settings.exportLimit = some limit → limit < g.exportPlanned →
      ∃ total : Nat,
        (total : Int) = (m.solar : Int) - ((g.exportPlanned : Int) - limit) + s.settings.probeStep ∧
        g.totalCeiling = some total ∧ g.exportLimited = true ∧ g.ceilingsCarried = false ∧
        ∀ k : Fin 8, g.ceilings[k.val] = some (min 2000000 (m.canopyMeans[k.val] * total / m.solar))) ∧
    (∀ o : GrantSet, m.meterLost = true → s.ale.current = some o →
      g.totalCeiling = none ∧ g.ceilings = o.ceilings ∧ g.exportLimited = o.exportLimited ∧
        g.ceilingsCarried = true) ∧
    (m.meterLost = true → s.ale.current = none →
      g.totalCeiling = none ∧ g.ceilings = Vector.replicate 8 none ∧ g.exportLimited = false ∧
        g.ceilingsCarried = false) ∧
    g.margin = s.settings.margin ∧ (g.curtailed = true ↔ s.ale.overlay ≠ none) ∧ g.meterLost = m.meterLost ∧
    g.meterLostLatch = m.meterLost ∧ g.held = m.held ∧ g.lost = m.lost

/-- What the last two steps of an allocation do. The GRANT_SET event gives every ACTIVE record the charge state of the
table, and hands over a CHARGE_STATE for each record that changed and for no other, with its bay's last grant, in
ascending record id (the order is the model's, assumption 14). Then the alarms: IMPORT_LIMIT with its figures when the
shortfall begins and IMPORT_CLEAR when it ends, METER_LOST once when the meter is lost and nothing when it returns, and
no other (R39, R52, R53, R93). -/
def Obligations.AllocationTellsItsOutcome : Prop :=
  (∀ v w : State, w = v.grantSetEvent →
    w = { v with ssm := { v.ssm with records := w.ssm.records }, mpt := w.mpt } ∧
    (∀ r : RecordId, (v.record r).state ≠ .active → w.record r = v.record r) ∧
    (∀ (r : RecordId) (g : Record) (e : Bay) (recorded : Prop), v.record r = g → g.state = .active →
      v.bay g.bay = e → (recorded ↔ e.recordedStart ≠ none ∧ e.recordedStart = g.startSeq) →
      w.record r = { g with charge := (w.record r).charge } ∧
      (¬ recorded → e.lastStatus.vehicle ≠ .demanding → (w.record r).charge = .idle) ∧
      (¬ recorded → e.lastStatus.vehicle = .demanding → (w.record r).charge = .waiting) ∧
      (recorded → 0 < e.lastGrant → (w.record r).charge = .running) ∧
      (recorded → e.lastGrant = 0 → e.shedPlace ≠ .none → (w.record r).charge = .shed) ∧
      (recorded → e.lastGrant = 0 → e.shedPlace = .none → (w.record r).charge = .waiting)) ∧
    w.mpt =
      ((allRecords.filter fun r => (w.record r).charge ≠ (v.record r).charge).foldl
        (fun u r => u.notify (.session (.chargeState r (v.record r).bay (w.record r).charge
          (v.bay (v.record r).bay).lastGrant))) v).mpt) ∧
  ∀ (s v : State) (m : MeasurementSet) (rest : List MeasurementSet) (g : GrantSet) (room : Int),
    s.ale.inbox = m :: rest → g = s.newGrantSet m →
    v = ({ s with ale := { s.ale with inbox := rest } } : State).installSet m →
    room = g.headroom + m.solar + g.maxDischarge →
    (m.meterLost = true → s.ale.meterLostLatch = false →
      exec .allocation s =
        .next (v.grantSetEvent.notify (.alarm (.meterLost m.cycle s.settings.fallbackPool)))) ∧
    (m.meterLost = true → s.ale.meterLostLatch = true → exec .allocation s = .next v.grantSetEvent) ∧
    (m.meterLost = false → s.ale.importLatch = false → room < 0 →
      exec .allocation s =
        .next (v.grantSetEvent.notify
          (.alarm (.importLimit m.cycle g.glim g.source g.shopLoad (-room))))) ∧
    (m.meterLost = false → s.ale.importLatch = true → 0 ≤ room →
      exec .allocation s = .next (v.grantSetEvent.notify (.alarm (.importClear m.cycle)))) ∧
    (m.meterLost = false → (s.ale.importLatch = true ↔ room < 0) → exec .allocation s = .next v.grantSetEvent)

/-- How an allocation admits and fills. An eligible bay is a candidate of group (c) when its recorded session start
number is another session's; listed, it is due once its hold has elapsed and no candidate before; unlisted, it is
running when the current grant set grants it and of group (c) otherwise. The order of a class holds its candidates
once each: the running by start sequence number, then the due as they stand on the stack and in the unlisted set, then
the others by start sequence number. Each candidate is admitted when its floor, and the restore margin of a due one,
fits above the floors admitted before it. Classes 0 and 1 are walked together with the class 0/1 pool and filled in
turn, the class 1 floors held back from class 0; class 2 is walked and filled with its own. A fill takes the highest
level that fits and then gives one dA more, in order, where the leftover allows it. Each bay filled has its grant in
the grant set and no other bay has one. Stated where no bay is listed twice, as every allocation keeps it (R58–R67).
That a bay whose session was suspended and resumed, or moved away and back, with no allocation between is grouped by
these tests alone is the model's choice (assumption 26). -/
def Obligations.AdmissionFollowsTheOrder : Prop :=
  (∀ (s : State) (q : Word32) (x : Eligible) (listed : List ShedEntry) (own : Prop),
    listed = s.ale.shedStack ++ s.ale.unlisted → (listed.map (·.bay)).Nodup →
    (own ↔ (s.bay x.bay).recordedStart = none ∨ (s.bay x.bay).recordedStart = some x.seq) →
    (¬ own → s.groupOf q x = some .others) ∧
    (∀ e ∈ listed, own → e.bay = x.bay →
      s.groupOf q x = if s.settings.shedHold ≤ (q - e.since).toNat then some .due else none) ∧
    (own → (∀ e ∈ listed, e.bay ≠ x.bay) →
      ((∃ g, s.ale.current = some g ∧ g.grants[x.bay.val] ≠ 0) → s.groupOf q x = some .running) ∧
      ((∀ g, s.ale.current = some g → g.grants[x.bay.val] = 0) → s.groupOf q x = some .others))) ∧
  (∀ (s : State) (q : Word32) (cls : Fin 3) (listed : List ShedEntry) (order : List Candidate)
    (place : Candidate → Nat),
    listed = s.ale.shedStack ++ s.ale.unlisted → (listed.map (·.bay)).Nodup →
    (∀ c, place c = listed.findIdx fun e => e.bay = c.x.bay) → order = s.classOrder (s.candidates q) cls →
    (∀ c, c ∈ order ↔ s.eligible c.x.bay = some c.x ∧ c.x.cls = cls ∧ s.groupOf q c.x = some c.group) ∧
    (order.map (·.x.bay)).Nodup ∧
    order.Pairwise fun c d =>
      c.group = .running ∧ d.group ≠ .running ∨ c.group = .due ∧ d.group = .others ∨
        c.group = d.group ∧ (c.group = .due → place c < place d) ∧
          (c.group ≠ .due → c.x.seq.toNat ≤ d.x.seq.toNat)) ∧
  (∀ (pool margin : Nat) (before : List Candidate) (c : Candidate) (w : Walk), w = walk pool margin 0 before →
    walk pool margin 0 [] = ⟨[], []⟩ ∧
    walk pool margin 0 (before ++ [c]) =
      if (w.admitted.map fun d => 60 * d.x.weight).sum + 60 * c.x.weight + (if c.group = .due then margin else 0) ≤ pool
      then ⟨w.admitted ++ [c], w.shed⟩ else ⟨w.admitted, w.shed ++ [c]⟩) ∧
  (∀ (pool level : Nat) (l : List Eligible), 60 ≤ level → level ≤ 320 →
    (l.map fun x => x.weight * min x.req level).sum ≤ pool →
    level = 320 ∨ pool < (l.map fun x => x.weight * min x.req (level + 1)).sum →
    (fill pool l).map (·.x) = l ∧
    ∀ before y after, fill pool l = before ++ y :: after →
      y.grant = min y.x.req level +
        if level < y.x.req ∧
            (l.map fun x => x.weight * min x.req level).sum +
              (before.map fun z => (z.grant - min z.x.req level) * z.x.weight).sum + y.x.weight ≤ pool
        then 1 else 0) ∧
  ∀ (s : State) (m : MeasurementSet) (g : GrantSet) (a : Allotment) (order : Fin 3 → List Candidate)
    (zero one : List Eligible) (filled : List Granted),
    g = s.newGrantSet m → a = s.allot m (s.terms m) →
    (∀ cls, order cls = s.classOrder (s.candidates m.cycle) cls) →
    zero = (a.first.admitted.filter fun c => c.x.cls = 0).map (·.x) →
    one = (a.first.admitted.filter fun c => c.x.cls = 1).map (·.x) →
    filled = fill (g.pool01 - (one.map fun x => 60 * x.weight).sum) zero →
    a.first = walk g.pool01 s.settings.restoreMargin 0 (order 0 ++ order 1) ∧
    a.second = walk g.pool2 s.settings.restoreMargin 0 (order 2) ∧
    a.granted01 = filled ++ fill (g.pool01 - (filled.map fun z => z.grant * z.x.weight).sum) one ∧
    a.granted2 = fill g.pool2 (a.second.admitted.map (·.x)) ∧
    g.granted01 = (a.granted01.map fun z => z.grant * z.x.weight).sum ∧
    g.granted2 = (a.granted2.map fun z => z.grant * z.x.weight).sum ∧
    (((s.ale.shedStack ++ s.ale.unlisted).map (·.bay)).Nodup →
      (∀ z ∈ a.granted01 ++ a.granted2, g.grants[z.x.bay.val] = z.grant) ∧
      ∀ b : BayId, (∀ z ∈ a.granted01 ++ a.granted2, z.x.bay ≠ b) → g.grants[b.val] = 0)

/-- The stack update of an allocation. An entry stays when its bay is eligible, the entry is its session's own and the
bay was not admitted. Entries beyond the depth are moved from the bottom to the unlisted set. The newly shed, those of
the running and of group (c) that were not admitted, are pushed so that the first in admission order ends on top, each
with the allocation's sequence number. Past the depth WRAP moves the bottom entry to the unlisted set and FREEZE the
new bay; each move counts as an overflow. The unlisted set stays in ascending bay number, no bay comes to be listed
twice, and every bay's shed place and shed-since cycle are those of the lists. Stated for a depth of 1 or more, as the
setting's range has it (R67–R70, R72). -/
def Obligations.ShedStackIsUpdated : Prop :=
  ∀ (s : State) (m : MeasurementSet) (z : Shedding) (a : Allotment) (depth : Nat) (stays : ShedEntry → Bool)
    (stack unlisted pushed listed : List ShedEntry),
    z = s.newShedding m → a = s.allot m (s.terms m) → depth = s.settings.shedStackDepth → 1 ≤ depth →
    (∀ e, stays e = true ↔ ∃ x, s.eligible e.bay = some x ∧
      ((s.bay e.bay).recordedStart = none ∨ (s.bay e.bay).recordedStart = some x.seq) ∧
      ∀ c ∈ a.first.admitted ++ a.second.admitted, c.x.bay ≠ e.bay) →
    stack = s.ale.shedStack.filter stays → unlisted = s.ale.unlisted.filter stays →
    pushed = ((a.first.shed ++ a.second.shed).filter fun c => c.group = .running ∨ c.group = .others).map
      (fun c => ⟨c.x.bay, m.cycle⟩) →
    listed = pushed ++ stack.take depth →
    (s.settings.overflowPolicy = .wrap →
      z.stack = listed.take depth ∧ z.unlisted.Perm (unlisted ++ stack.drop depth ++ listed.drop depth) ∧
      z.overflow = s.ale.overflowCount + BitVec.ofNat 32 ((stack.drop depth).length + (listed.drop depth).length)) ∧
    (∀ out : Nat, s.settings.overflowPolicy = .freeze → out = pushed.length - (depth - (stack.take depth).length) →
      z.stack = pushed.drop out ++ stack.take depth ∧
      z.unlisted.Perm (unlisted ++ stack.drop depth ++ pushed.take out) ∧
      z.overflow = s.ale.overflowCount + BitVec.ofNat 32 ((stack.drop depth).length + out)) ∧
    (s.ale.unlisted.Pairwise (fun d e => d.bay ≤ e.bay) → z.unlisted.Pairwise fun d e => d.bay ≤ e.bay) ∧
    (((s.ale.shedStack ++ s.ale.unlisted).map (·.bay)).Nodup → ((z.stack ++ z.unlisted).map (·.bay)).Nodup) ∧
    ∀ (t : State) (rest : List MeasurementSet), s.ale.inbox = m :: rest → exec .allocation s = .next t →
      t.ale.shedStack = z.stack ∧ t.ale.unlisted = z.unlisted ∧ t.ale.overflowCount = z.overflow ∧
      (((z.stack ++ z.unlisted).map (·.bay)).Nodup →
        (∀ (i : Nat) (e : ShedEntry), z.stack[i]? = some e →
          (t.bay e.bay).shedPlace = .stack (i + 1) ∧ (t.bay e.bay).shedSince = some e.since) ∧
        (∀ e ∈ z.unlisted, (t.bay e.bay).shedPlace = .unlisted ∧ (t.bay e.bay).shedSince = some e.since) ∧
        ∀ b : BayId, (∀ e ∈ z.stack ++ z.unlisted, e.bay ≠ b) →
          (t.bay b).shedPlace = .none ∧ (t.bay b).shedSince = none)

/-- The grants of every allocation stay within their pools, over each class group and in the power recorded, whatever
the state: a bay that is not eligible is granted 0, and one that is granted is granted at most its request, and at
least 60 dA when it requests that much (R54, R60, R62–R66). -/
def Obligations.GrantsStayWithinThePools : Prop :=
  ∀ (s : State) (m : MeasurementSet) (g : GrantSet), g = s.newGrantSet m →
    g.granted01 ≤ g.pool01 ∧ g.granted2 ≤ g.pool2 ∧
    ((s.eligibles.filter fun x => x.cls ≠ 2).map fun x => g.grants[x.bay.val] * x.weight).sum ≤ g.granted01 ∧
    ((s.eligibles.filter fun x => x.cls = 2).map fun x => g.grants[x.bay.val] * x.weight).sum ≤ g.granted2 ∧
    ∀ b : BayId,
      (s.eligible b = none → g.grants[b.val] = 0) ∧
      (∀ x, s.eligible b = some x →
        g.grants[b.val] ≤ x.req ∧ (g.grants[b.val] ≠ 0 → 60 ≤ x.req → 60 ≤ g.grants[b.val]))

/-! ## Settlement intervals -/

/-- The IVM takes a measurement set: with an end time it adds each power times the cycle's duration to the current
interval, raises the peak and counts the cycle; without one it takes nothing from it. Nothing else changes (R167).
That the set is the oldest waiting and that nothing happens with none are the model's choices (assumptions 9, 11), and
past 2^32 cycles the count is left open (assumption 8). INTERVAL_ACK removes the oldest pending record when it is
named, and the reply carries the one that is oldest then; an empty list gives NOT_ACTIVE and another number UNKNOWN
with the numbers pending, and both change nothing (R172). -/
def Obligations.MeasurementSetsAreIntegrated : Prop :=
  (∀ s : State, s.ivm.inbox = [] → exec .measurementSetAtIvm s = .next s) ∧
  (∀ (s : State) (m : MeasurementSet) (rest : List MeasurementSet), s.ivm.inbox = m :: rest →
    (m.endTime = none → exec .measurementSetAtIvm s = .next { s with ivm := { s.ivm with inbox := rest } }) ∧
    (∀ (i : Interval) (cm : Nat), m.endTime ≠ none → s.ivm.current = some i → i.cycles + 1 < 2 ^ 32 →
      i.lostCycles + 1 < 2 ^ 32 →
      cm = ((allBays.filter fun b => (s.bay b).link = .online).map fun b => (s.bay b).lastPower).sum →
      exec .measurementSetAtIvm s = .next { s with
        ivm := { s.ivm with
          inbox := rest
          lastCycle := some m.duration
          current := some { i with
            acc :=
              { imported := i.acc.imported + (max 0 m.grid).toNat * m.duration
                exported := i.acc.exported + (max 0 (-m.grid)).toNat * m.duration
                solar := i.acc.solar + m.solar * m.duration
                discharge := i.acc.discharge + (max 0 m.battery).toNat * m.duration
                charge := i.acc.charge + (max 0 (-m.battery)).toNat * m.duration
                chargers := i.acc.chargers + cm * m.duration }
            peak := max i.peak (max 0 m.grid).toNat
            cycles := i.cycles + 1
            lostCycles := if m.meterLost then i.lostCycles + 1 else i.lostCycles
            meterLost := i.meterLost || m.meterLost } } })) ∧
  (∀ (p : Port) (e : Nat) (n : Word32) (s : State), s.takenLevel p (.intervalAck p n) = some e →
    (s.ivm.pendingRecords = [] →
      exec (.intervalAck p n) s = .next ((Answer.refuse .notActive s).send p)) ∧
    (∀ oldest rest, s.ivm.pendingRecords = oldest :: rest →
      (oldest.number = n →
        exec (.intervalAck p n) s =
          .next ((Answer.mk .ok (.oldestInterval rest.head?)
            { s with ivm := { s.ivm with pendingRecords := rest } }).send p)) ∧
      (oldest.number ≠ n →
        exec (.intervalAck p n) s =
          .next ((Answer.same .unknown (.intervalNumbers ((oldest :: rest).map (·.number))) s).send p))))

/-- A boundary close and a SET_CLOCK of a set clock close the current interval without losing a mJ, and a new interval
begins with nothing in it, at the end just closed or at the new time; a SET_CLOCK of an unset clock only begins the
first. SET_CLOCK gives its clock the time asked for, a ms of day above 86,399,999 gives BAD_ARG, and an interval whose
end has not been reached does not close (R165, R166, R168–R170). That a BOUNDARY_CLOSE before the end does nothing is
the model's choice (assumption 11); merged counts and energies are stated below 2^32 and 2^64, past which they are
left open (assumption 8). -/
def Obligations.IntervalsCloseWithoutLoss : Prop :=
  ∀ (s : State) (length : Nat), length = 1000 * s.settings.intervalLength →
    (∀ (i : Interval) (now : SiteTime), s.ivm.current = some i → s.now = some now →
      (now.reaches i.stop = false → exec .boundaryClose s = .next s) ∧
      (now.reaches i.stop = true →
        ∃ t : State, exec .boundaryClose s = .next t ∧ s.ClosedInto i i.stop false t ∧
          t = { s with ivm := { t.ivm with clock := s.ivm.clock, lastCycle := s.ivm.lastCycle, inbox := s.ivm.inbox }
                       mpt := t.mpt } ∧
          t.ivm.current = some ⟨i.stop, i.stop.later (length - i.stop.ms.val % length), Six.zero, 0, false, false, 0,
            0⟩)) ∧
    (∀ (p : Port) (e : Nat) (day : Word16) (ms : Word32), s.takenLevel p (.setClock p day ms) = some e →
      (86399999 < ms.toNat → exec (.setClock p day ms) s = .next ((Answer.refuse .badArg s).send p)) ∧
      (∀ (new : SiteTime) (first : Interval), new.day.val = day.toNat → new.ms.val = ms.toNat →
        first = ⟨new, new.later (length - new.ms.val % length), Six.zero, 0, true, false, 0, 0⟩ →
        (s.now = none →
          exec (.setClock p day ms) s =
            .next ((Answer.mk .ok (.intervalClosed none)
              { s with ivm := { s.ivm with clock := some new, current := some first } }).send p)) ∧
        (∀ (i : Interval) (now : SiteTime), s.ivm.current = some i → s.now = some now →
          ∃ (t : State) (number : Word32),
            exec (.setClock p day ms) s = .next ((Answer.mk .ok (.intervalClosed (some number)) t).send p) ∧
            s.ClosedInto i now true t ∧
            t = { s with
              ivm := { t.ivm with
                clock := some new, current := some first, lastCycle := s.ivm.lastCycle, inbox := s.ivm.inbox }
              mpt := t.mpt } ∧
            (s.ivm.pendingRecords.length ≤ 1 → number = s.ivm.nextNumber) ∧
            (∀ a b, s.ivm.pendingRecords = [a, b] → number = b.number))))

/-! ## Settings, saves and resets -/

/-- SET_SETTING takes a value for the setting an id names, brought within its range: each numeric range at its nearest
end, enabled and token-free transfer above 1 as on, phases as 1 or 3, the period length as a multiple of 50, the
interval length as one of its three, the export limit's 0xFFFFFFFF as none, and the marks of plans 0–15. It writes
that value as the working value of that setting and of no other, and is answered OK when it is the value given and
CLAMPED when it is not, with the value taken, the save state and whether the stored image is valid. An id outside the
table and a choice above 1 give BAD_ARG, and a ceiling that would leave both above 0 gives DENIED; both change nothing
(R182, R192, R193). That a refusal carries the head alone is the model's choice (assumption 25). -/
def Obligations.SetSettingTakesTheValue : Prop :=
  (∀ (n low high : Nat) (setting : SettingId) (id : Word16) (x : Nat), id.toNat = n → x < 2 ^ 32 →
    (n, setting, low, high) ∈
      [(0x01, .sweepPeriod, 200, 2000), (0x02, .silentThreshold, 1, 15), (0x40, .periodsPerCycle, 4, 40),
        (0x42, .windowStart, 0, 39), (0x43, .windowStop, 0, 39), (0x44, .holdCycles, 1, 10),
        (0x50, .importLimit, 0, 2000000), (0x51, .margin, 0, 50000), (0x52, .reserveFloor, 0, 1000),
        (0x53, .chargeStop, 0, 1000), (0x55, .probeStep, 0, 20000), (0x56, .fallbackPool, 0, 2000000),
        (0x58, .shedHold, 0, 60), (0x59, .restoreMargin, 0, 20000), (0x5A, .shedStackDepth, 1, 16),
        (0x60, .authorisationTimeout, 1, 60), (0x61, .resumeWindow, 10, 900), (0x62, .transferTimeout, 30, 1800),
        (0x63, .tokenFreeTransfer, 0, 1), (0x71, .demandTarget, 0, 2000000), (0x78, .ceilingA, 0, 2),
        (0x79, .ceilingB, 0, 2)] ∨
      (∃ b : BayId, n = 0x10 + b.val ∧ setting = .enabled b ∧ low = 0 ∧ high = 1) ∨
      (∃ b : BayId, n = 0x30 + b.val ∧ setting = .cableRating b ∧ low = 60 ∧ high = 320) ∨
      (∃ k : Fin 8, n = 0x48 + k.val ∧ setting = .converterRating k ∧ low = 0 ∧ high = 2000000) →
    settingOf id = some setting ∧ setting.taken x = some (if x < low then low else if high < x then high else x)) ∧
  (∀ x : Nat, x < 2 ^ 32 →
    (∀ b : BayId, settingOf (BitVec.ofNat 16 (0x20 + b.val)) = some (.phases b) ∧
      (SettingId.phases b).taken x = some (if x ≤ 2 then 1 else 3)) ∧
    settingOf 0x41 = some .periodLength ∧
    (∀ taken, SettingId.periodLength.taken x = some taken → taken % 50 = 0 ∧ 50 ≤ taken ∧ taken ≤ 500 ∧
      (500 ≤ x → taken = 500) ∧ (50 ≤ x → x < 500 → taken ≤ x ∧ x < taken + 50) ∧ (x < 50 → taken = 50)) ∧
    settingOf 0x54 = some .exportLimit ∧
    SettingId.exportLimit.taken x = some (if 2000000 < x ∧ x ≠ 0xFFFFFFFF then 2000000 else x) ∧
    settingOf 0x68 = some .protectedPlans ∧ SettingId.protectedPlans.taken x = some (x % 2 ^ 16) ∧
    settingOf 0x70 = some .intervalLength ∧
    SettingId.intervalLength.taken x = some (if x < 900 then 300 else if x < 1800 then 900 else 1800) ∧
    ∀ choice ∈ [(0x5B, SettingId.overflowPolicy), (0x7A, .receiptPort), (0x7B, .authorisationPort)],
      settingOf choice.1 = some choice.2 ∧ choice.2.taken x = if x ≤ 1 then some x else none) ∧
  (∀ id : Word16, settingOf id = none ↔ ¬ (0x10 ≤ id.toNat ∧ id.toNat ≤ 0x3F ∨ 0x48 ≤ id.toNat ∧ id.toNat ≤ 0x4F ∨
    id.toNat ∈ [0x01, 0x02, 0x40, 0x41, 0x42, 0x43, 0x44, 0x50, 0x51, 0x52, 0x53, 0x54, 0x55, 0x56, 0x58, 0x59, 0x5A,
      0x5B, 0x60, 0x61, 0x62, 0x63, 0x68, 0x70, 0x71, 0x78, 0x79, 0x7A, 0x7B])) ∧
  ∀ (p : Port) (e : Nat) (id : Word16) (x : Word32) (s : State), s.takenLevel p (.setSetting p id x) = some e →
    (settingOf id = none → exec (.setSetting p id x) s = .next ((Answer.refuse .badArg s).send p)) ∧
    ∀ setting, settingOf id = some setting →
      (setting.taken x.toNat = none → exec (.setSetting p id x) s = .next ((Answer.refuse .badArg s).send p)) ∧
      ∀ v, setting.taken x.toNat = some v →
        (setting = .ceilingA ∧ 0 < v ∧ 0 < s.settings.ceilingB ∨ setting = .ceilingB ∧ 0 < v ∧ 0 < s.settings.ceilingA →
          exec (.setSetting p id x) s = .next ((Answer.refuse .denied s).send p)) ∧
        (¬ (setting = .ceilingA ∧ 0 < v ∧ 0 < s.settings.ceilingB ∨
            setting = .ceilingB ∧ 0 < v ∧ 0 < s.settings.ceilingA) →
          ∃ new : Settings,
            exec (.setSetting p id x) s =
              .next ((Answer.mk (if v = x.toNat then .ok else .clamped)
                (.setting v (s.sst.save != .idle) s.sst.image.valid)
                { s with sst := { s.sst with working := new } }).send p) ∧
            setting.value new = v ∧ setting.taken v = some v ∧
            ∀ other, other ≠ setting → other.value new = other.value s.settings)

/-- Each of the three resets leaves the same part, its cause apart: the stored image as it was, the working set from a
valid image brought within its ranges or the defaults from an invalid one, every bay scheduled by its enabled setting
on its default slots, no session, tariff, receipt, interval or grant set, START alone on its way on Port A, and the
first sweep and the first cycle begun with the settings and the effective window of the working set (R1, R8, R21, R22,
R28, R36, R56, R100, R134, R163, R176, R195–R198). RESTART is answered BUSY and resets nothing while a save is in
flight (R195). SAVE_SETTINGS takes a copy of the working set, marks the stored image invalid and stays in service, and
is answered BUSY while a save is in flight; at the completion the stored image holds the copy and is valid, the save
state is IDLE and the request that waits is answered OK (R180, R194). The model's choices in it: the waiting commands
survive a reset (assumption 2), start-up is whole within the reset (assumption 22), the invalid image keeps its
contents while it is saved (assumption 23), and SAVE_COMPLETE with no save in flight changes nothing (assumption 11). -/
def Obligations.ResetsStartThePart : Prop :=
  (∀ (s : State) (cause : ResetCause) (c : Instr) (p : Port) (e : Nat),
    c = .powerOn ∧ cause = .power ∨ c = .resetPin ∧ cause = .pin ∨
      c = .restart p ∧ cause = .restart ∧ s.takenLevel p (.restart p) = some e ∧ s.sst.save = .idle →
    ∃ t : State,
      exec c s = .next t ∧ t.pending = s.pending ∧
      t.sst.image = s.sst.image ∧ t.sst.save = .idle ∧
      (s.sst.image.valid = false → t.sst.working = Settings.defaults) ∧
      (s.sst.image.valid = true → ∀ (id : SettingId) (v : Nat),
        id.taken (id.value s.sst.image.contents) = some v → id.value t.sst.working = v) ∧
      (∀ b : BayId,
        t.bay b = Bay.fresh (if t.sst.working.enabled[b.val] then .scheduledWait else .absent) ∧
        t.activeMasks b = (if t.sst.working.enabled[b.val] then ⟨1#16 <<< b.val, 3#32 <<< (2 * b.val)⟩ else ⟨0, 0⟩) ∧
        t.blc.staged[b.val] = ⟨0, 0⟩) ∧
      t.blc.pendingCopy = none ∧ t.blc.sweepNumber = 0 ∧ t.blc.sweepBegun = true ∧ t.blc.grantSource = none ∧
      t.blc.sweepPeriodTaken = t.sst.working.sweepPeriod ∧ (∀ b : BayId, t.blc.heard[b.val] = false) ∧
      (∀ k : NodeId, t.node k = Node.fresh) ∧ t.clc.battery = BatteryEntry.fresh ∧ t.clc.cycleNumber = 0 ∧
      t.clc.periodIndex = 0 ∧ t.clc.polled = false ∧ t.clc.periodsTaken = t.sst.working.periodsPerCycle ∧
      t.clc.lengthTaken = t.sst.working.periodLength ∧
      t.clc.windowTo = min t.sst.working.windowStop (t.sst.working.periodsPerCycle - 1) ∧
      t.clc.windowFrom = min t.sst.working.windowStart t.clc.windowTo ∧ t.lines = ⟨none, none⟩ ∧
      t.ale = ⟨[], none, none, none, false, false, [], [], 0⟩ ∧
      (∀ r : RecordId, t.record r = Record.cleared) ∧ t.ssm.startCounter = 0 ∧ t.ssm.allocPointer = 0 ∧
      t.ssm.waiting = [] ∧ (∀ b : BayId, t.ssm.endedLatch[b.val] = false ∧ t.ssm.noContextMark[b.val] = false) ∧
      (∀ q : PlanId, t.plan q = none) ∧ (∀ pg : PageId, t.page pg = Page.cleared) ∧ t.tfs.staging = none ∧
      t.rcq = ⟨[], 1⟩ ∧ t.ivm = ⟨none, none, Six.zero, [], 1, none, []⟩ ∧
      t.port .b = ⟨.hunting, [], .unchecked, [], 0, 0, false, none⟩ ∧
      t.port .a = ⟨.hunting, [], .unchecked,
        [⟨0, 0, 0x40, false, .notice none (.start cause (!s.sst.image.valid))⟩], 0, 0, false, none⟩) ∧
  (∀ (s : State) (p : Port) (e : Nat) (copy : Settings) (q : Port),
    s.takenLevel p (.restart p) = some e → s.sst.save = .saving copy q →
    exec (.restart p) s = .next ((Answer.refuse .busy s).send p)) ∧
  (∀ (p : Port) (s : State),
    (∀ e : Nat, s.takenLevel p (.saveSettings p) = some e →
      (∀ copy q, s.sst.save = .saving copy q →
        exec (.saveSettings p) s = .next ((Answer.refuse .busy s).send p)) ∧
      (s.sst.save = .idle →
        exec (.saveSettings p) s =
          .next (({ s with
            sst := { s.sst with
              image := { s.sst.image with valid := false }
              save := .saving s.sst.working p } } : State).modPort p fun c => { c with service := .awaiting }))) ∧
    (∀ copy, s.sst.save = .saving copy p → (s.port p).service = .awaiting →
      exec .saveComplete s =
        .next ((Answer.mk .ok .nothing
          { s with sst := { s.sst with image := ⟨true, copy⟩, save := .idle } }).send p)) ∧
    (s.sst.save = .idle → exec .saveComplete s = .next s))

/-! ## The message ports -/

/-- The bytes of a request, taken by a hunting receiver after any bytes without a start byte, join the tail of the
receive queue as that request, and a fifth is answered BUSY at once below 14 messages and dropped otherwise. A message
with a flags byte other than 0 and a message whose length is above 1,152 are discarded and counted. A message whose
CRC is not that of its bytes is discarded and counted, and the bytes after its start byte are taken again from there,
with whatever follows them. A message that has begun and not ended leaves the receiver holding its bytes so far, and
bytes that arrive in two commands are taken like the same bytes in one, whatever the receiver holds. More than 20 ms
within a message discard it and count it, and the byte that ends the gap is examined as a start. Each changes its own
port's context alone (R177–R179, R187). That bytes given to REQUEST_ARRIVAL and to MESSAGE_DISCARD are taken alike is
the model's choice (assumption 6). -/
def Obligations.ReceiversFrameMessages : Prop :=
  ∀ (p : Port) (s : State) (c : PortContext), s.port p = c →
    (∀ (noise body : List Byte) (role kind : Byte) (tag : Word16) (instr : Instr) (bytes : List Byte),
      c.receiver = .hunting → (0xC3 : Byte) ∉ noise → body.length ≤ 1152 →
      instr = .requestArrival p bytes ∨ instr = .messageDiscard p bytes →
      (bytes = noise ++ envelope role tag kind 0 body →
        (c.receiveQueue.length < 4 →
          exec instr s = .next (s.modPort p fun _ =>
            { c with receiveQueue := c.receiveQueue ++ [⟨role, tag, kind, body⟩] })) ∧
        (4 ≤ c.receiveQueue.length → c.transmitQueue.length < 14 →
          exec instr s = .next (s.modPort p fun _ =>
            c.append ⟨role, tag, kind, false, .reply ⟨.busy, 4, c.errorCount, c.droppedCount, .nothing⟩⟩)) ∧
        (4 ≤ c.receiveQueue.length → 14 ≤ c.transmitQueue.length →
          exec instr s = .next (s.modPort p fun _ =>
            { c with droppedCount := c.droppedCount + 1, dropMark := true }))) ∧
      (∀ flags : Byte, flags ≠ 0 → bytes = noise ++ envelope role tag kind flags body →
        exec instr s = .next (s.modPort p fun _ => { c with errorCount := c.errorCount + 1 })) ∧
      (∀ high low : Byte, 1152 < high.toNat * 256 + low.toNat → high ≠ 0xC3 → low ≠ 0xC3 →
        bytes = noise ++ [0xC3, high, low] →
        exec instr s = .next (s.modPort p fun _ => { c with errorCount := c.errorCount + 1 })) ∧
      (∀ (flags high low : Byte) (inner more : List Byte), envelope role tag kind flags body = 0xC3 :: inner →
        (high.toNat * 256 + low.toNat ≠ (crc16 (inner.take (body.length + 7))).toNat) →
        bytes = noise ++ 0xC3 :: inner.take (body.length + 7) ++ [high, low] ++ more →
        exec instr s = .next (s.modPort p fun _ =>
          ({ c with errorCount := c.errorCount + 1 } : PortContext).take
            (inner.take (body.length + 7) ++ [high, low] ++ more))) ∧
      (∀ (flags : Byte) (inner : List Byte) (n : Nat), envelope role tag kind flags body = 0xC3 :: inner →
        n < inner.length → bytes = noise ++ 0xC3 :: inner.take n →
        exec instr s = .next (s.modPort p fun _ => { c with receiver := .inMessage (inner.take n) }))) ∧
    (∀ (one two both : Instr) (x y : List Byte) (t : State),
      one = .requestArrival p x ∨ one = .messageDiscard p x →
      two = .requestArrival p y ∨ two = .messageDiscard p y →
      both = .requestArrival p (x ++ y) ∨ both = .messageDiscard p (x ++ y) →
      exec one s = .next t → exec two t = exec both s) ∧
    (∀ next : Byte,
      exec (.interByteTimeout p next) s = .next (s.modPort p fun _ =>
        { c with
          errorCount := if c.receiver = .hunting then c.errorCount else c.errorCount + 1
          receiver := if next = 0xC3 then .inMessage [] else .hunting }))

/-- A request entering service is checked in order: NO_ROOM at 11 or more messages, BAD_ARG for a role above 2,
UNKNOWN_KIND, DENIED when its effective level is above the request's, BAD_LENGTH. The first that fails answers it with
the head alone, and a request that passes stands at its owning block with its effective level. Only its own port's
context changes. That a port with no request to check, or one whose request is in service, is left alone is the model's
choice (assumption 5; R180–R183). -/
def Obligations.ServiceStartChecksInOrder : Prop :=
  ∀ (p : Port) (s : State) (c : PortContext), s.port p = c →
    (∀ (q : Request) (rest : List Request) (level : Nat), c.service = .unchecked → c.receiveQueue = q :: rest →
      level = max (s.settings.ceiling p) q.role.toNat → c.transmitQueue.length < 16 →
      (∀ code,
        code = .noRoom ∧ 11 ≤ c.transmitQueue.length ∨
          c.transmitQueue.length < 11 ∧
            (code = .badArg ∧ 2 < q.role.toNat ∨
              q.role.toNat ≤ 2 ∧
                (code = .unknownKind ∧ requestKind q.kind = none ∨
                  ∃ k, requestKind q.kind = some k ∧
                    (code = .denied ∧ (requestRow k).level < level ∨
                      level ≤ (requestRow k).level ∧ code = .badLength ∧
                        (q.body.length < (requestRow k).least ∨ (requestRow k).greatest < q.body.length)))) →
        exec (.serviceStart p) s = .next ((Answer.refuse code s).send p)) ∧
      (∀ k, c.transmitQueue.length < 11 → q.role.toNat ≤ 2 → requestKind q.kind = some k →
        level ≤ (requestRow k).level → (requestRow k).least ≤ q.body.length →
        q.body.length ≤ (requestRow k).greatest →
        exec (.serviceStart p) s = .next (s.modPort p fun c => { c with service := .handed level }) ∧
        ∀ i : Instr, requestOf p q.kind q.body = some i →
          (s.modPort p fun c => { c with service := .handed level }).takenLevel p i = some level)) ∧
    (c.receiveQueue = [] ∨ c.service ≠ .unchecked → exec (.serviceStart p) s = .next s)

/-- A message sent whole leaves its queue, and the next one's sending begins with the DROPPED flag when the drop mark
is set, which clears it; a message that joins an empty queue begins its sending at once, likewise. A notice is
appended below 12 messages and dropped, counted and marked at 12 or more, on the port its kind is routed to. A reply
joins its own port's queue with the request's tag, kind and role and the head of the port as it stands. Nothing else
changes (R183, R184, R186). That the drop mark is taken when a message's sending begins is the model's reading
(assumption 15), and that a TRANSMIT_COMPLETE on an empty queue does nothing its choice (assumption 11). -/
def Obligations.QueuesAreSentInOrder : Prop :=
  ∀ (s : State) (p : Port) (c : PortContext), s.port p = c →
    (c.transmitQueue = [] → exec (.transmitComplete p) s = .next s) ∧
    (∀ m, c.transmitQueue = [m] →
      exec (.transmitComplete p) s = .next (s.modPort p fun _ => { c with transmitQueue := [], lastSent := some m })) ∧
    (∀ m next rest, c.transmitQueue = m :: next :: rest →
      exec (.transmitComplete p) s = .next (s.modPort p fun _ =>
        { c with
          transmitQueue := { next with droppedFlag := c.dropMark } :: rest
          dropMark := false
          lastSent := some m })) ∧
    (∀ (n : Notice) (message : Message),
      p = (match n with
        | .authRequest _ _ _ _ => s.settings.authorisationPort
        | .receipt _ _ => s.settings.receiptPort
        | _ => .a) →
      message.role = 0 → message.tag = 0 → message.kind = n.kind → message.body = .notice s.now n →
      message.droppedFlag = false →
      (12 ≤ c.transmitQueue.length →
        s.notify n = s.modPort p fun _ => { c with droppedCount := c.droppedCount + 1, dropMark := true }) ∧
      (1 ≤ c.transmitQueue.length → c.transmitQueue.length < 12 →
        s.notify n = s.modPort p fun _ => { c with transmitQueue := c.transmitQueue ++ [message] }) ∧
      (c.transmitQueue = [] →
        s.notify n = s.modPort p fun _ =>
          { c with transmitQueue := [{ message with droppedFlag := c.dropMark }], dropMark := false })) ∧
    (∀ (q : Request) (rest : List Request) (code : ResultCode) (contents : Contents) (m : Message),
      c.receiveQueue = q :: rest →
      m = ⟨q.role, q.tag, q.kind, false,
        .reply ⟨code, c.receiveQueue.length, c.errorCount, c.droppedCount, contents⟩⟩ →
      (c.transmitQueue ≠ [] →
        (Answer.mk code contents s).send p = s.modPort p fun _ =>
          { c with transmitQueue := c.transmitQueue ++ [m], receiveQueue := rest, service := .unchecked }) ∧
      (c.transmitQueue = [] →
        (Answer.mk code contents s).send p = s.modPort p fun _ =>
          { c with
            transmitQueue := [{ m with droppedFlag := c.dropMark }]
            dropMark := false
            receiveQueue := rest
            service := .unchecked }))

/-- The bytes of messages. A message has its start byte, length, role, tag, kind, flags, body and CRC at their
offsets, and a receiver reads it back as these fields; its flags byte marks a reply, a notice, a resent receipt and
the DROPPED flag alone. A site-clock time is day and ms of day, all ones when absent. A reply has a head of 10 bytes,
and the reply to AUTHORIZE the record id and the start sequence number after it; START has the time, the cause and the
DEFAULTS bit. RECEIPT has every field of its receipt at its offset, an absent token and idle line as zeros, and 33
bytes for each line, the three mWh figures of a line in one number of 126 bits. Stated for fields that fit theirs
(R183, R185, R187, R188, R190, R191, R198). -/
def Obligations.MessagesAreLaidOut : Prop :=
  (∀ (role kind flags : Byte) (tag : Word16) (body bytes : List Byte), body.length ≤ 1152 →
    bytes = envelope role tag kind flags body →
    bytes.length = body.length + 10 ∧ fieldAt 0 1 bytes = [0xC3] ∧ beNat (fieldAt 1 2 bytes) = body.length ∧
    fieldAt 3 1 bytes = [role] ∧ beNat (fieldAt 4 2 bytes) = tag.toNat ∧ fieldAt 6 1 bytes = [kind] ∧
    fieldAt 7 1 bytes = [flags] ∧ fieldAt 8 body.length bytes = body ∧
    beNat (fieldAt (8 + body.length) 2 bytes) = (crc16 (fieldAt 1 (7 + body.length) bytes)).toNat ∧
    framing (bytes.drop 1) = .whole ⟨⟨role, tag, kind, body⟩, flags⟩) ∧
  (∀ (m : Message) (body bytes : List Byte), m.body.bytes = some body → m.bytes = some bytes →
    bytes = envelope m.role m.tag m.kind m.flags body ∧
    (∀ r, m.body = .reply r → m.flags = if m.droppedFlag then 0x09 else 0x01) ∧
    (∀ time n, m.body = .notice time n → (∀ r, n ≠ .receipt r true) →
      m.flags = if m.droppedFlag then 0x0A else 0x02) ∧
    (∀ time r, m.body = .notice time (.receipt r true) → m.flags = if m.droppedFlag then 0x0E else 0x06)) ∧
  (∀ t : SiteTime, (timeBytes (some t)).length = 6 ∧ beNat (fieldAt 0 2 (timeBytes (some t))) = t.day.val ∧
    beNat (fieldAt 2 4 (timeBytes (some t))) = t.ms.val ∧ timeBytes none = List.replicate 6 0xFF) ∧
  (∀ (code : ResultCode) (occupancy : Nat) (errors dropped seq : Word32) (record : RecordId) (contents : Contents)
    (bytes : List Byte), occupancy < 256 → contents = .nothing ∨ contents = .authorised record seq →
    Body.bytes (.reply ⟨code, occupancy, errors, dropped, contents⟩) = some bytes →
    fieldAt 0 1 bytes = [code.value] ∧ beNat (fieldAt 1 1 bytes) = occupancy ∧
    beNat (fieldAt 2 4 bytes) = errors.toNat ∧ beNat (fieldAt 6 4 bytes) = dropped.toNat ∧
    (contents = .nothing → bytes.length = 10) ∧
    (contents = .authorised record seq →
      bytes.length = 15 ∧ beNat (fieldAt 10 1 bytes) = record.val ∧ beNat (fieldAt 11 4 bytes) = seq.toNat)) ∧
  [ResultCode.ok, .clamped, .denied, .badArg, .badLength, .unknownKind, .unknown, .busy, .tooLate, .noRoom, .storeFull,
    .incomplete, .noPlan, .noVehicle, .noContext, .chainFull, .conflict, .clockUnset, .notActive].map
      (fun code => code.value.toNat) = List.range 19 ∧
  (∀ (time : Option SiteTime) (cause : ResetCause) (defaults : Bool) (bytes : List Byte),
    Body.bytes (.notice time (.start cause defaults)) = some bytes →
    bytes = timeBytes time ++ [(match cause with
      | .power => (0 : Byte)
      | .pin => 1
      | .restart => 2), if defaults then 1 else 0]) ∧
  ∀ (time : Option SiteTime) (r : Receipt) (resent : Bool) (bytes : List Byte),
    Body.bytes (.notice time (.receipt r resent)) = some bytes →
    r.records < 256 → r.lines.length < 256 → r.totalMWh < 2 ^ 48 → r.totalCents < 2 ^ 48 →
    (∀ i, r.idleLine = some i → i.minutes < 2 ^ 32 ∧ i.fee < 2 ^ 32) →
    bytes.length = 80 + 33 * r.lines.length ∧ beNat (fieldAt 0 4 bytes) = r.number.toNat ∧
    fieldAt 4 6 bytes = timeBytes r.issueTime ∧ beNat (fieldAt 10 1 bytes) = r.head.val ∧
    beNat (fieldAt 11 4 bytes) = r.startSeq.toNat ∧
    (r.token = none → fieldAt 15 17 bytes = List.replicate 17 0) ∧
    (∀ t, r.token = some t → fieldAt 15 1 bytes = [1] ∧ beNat (fieldAt 16 16 bytes) = t.toNat) ∧
    beNat (fieldAt 32 1 bytes) = r.plan.val ∧ beNat (fieldAt 33 8 bytes) = r.label.toNat ∧
    beNat (fieldAt 41 1 bytes) = r.cls.val ∧ beNat (fieldAt 42 1 bytes) = r.firstBay.val ∧
    beNat (fieldAt 43 1 bytes) = r.lastBay.val ∧ fieldAt 44 6 bytes = timeBytes r.startTime ∧
    fieldAt 50 6 bytes = timeBytes r.endTime ∧
    beNat (fieldAt 56 1 bytes) = (match r.endReason with
      | .stopped => 0
      | .unplugged => 1
      | .lost => 2
      | .linkLost => 3
      | .capReached => 4
      | .transferTimeout => 5
      | .noContext => 6
      | .splitLimit => 7) ∧
    beNat (fieldAt 57 1 bytes) = r.records ∧ beNat (fieldAt 58 1 bytes) = r.lines.length ∧
    (r.idleLine = none → fieldAt 59 9 bytes = List.replicate 9 0) ∧
    (∀ i, r.idleLine = some i →
      fieldAt 59 1 bytes = [1] ∧ beNat (fieldAt 60 4 bytes) = i.minutes ∧ beNat (fieldAt 64 4 bytes) = i.fee) ∧
    beNat (fieldAt 68 6 bytes) = r.totalMWh ∧ beNat (fieldAt 74 6 bytes) = r.totalCents ∧
    ∀ (n : Nat) (l : ReceiptLine) (line : List Byte), r.lines[n]? = some l → line = fieldAt (80 + 33 * n) 33 bytes →
      l.recordIndex < 256 → l.triple.solar < 2 ^ 16 → l.triple.battery < 2 ^ 16 → l.triple.grid < 2 ^ 16 →
      l.solar < 2 ^ 42 → l.battery < 2 ^ 42 → l.grid < 2 ^ 42 → l.cost < 2 ^ 32 →
      beNat (fieldAt 0 1 line) = l.recordIndex ∧ fieldAt 1 6 line = timeBytes l.firstUse ∧
      beNat (fieldAt 7 2 line) = l.triple.solar ∧ beNat (fieldAt 9 2 line) = l.triple.battery ∧
      beNat (fieldAt 11 2 line) = l.triple.grid ∧
      beNat (fieldAt 13 16 line) = l.solar * 2 ^ 84 + l.battery * 2 ^ 42 + l.grid ∧
      beNat (fieldAt 29 4 line) = l.cost
end

