-- ==== Sys2Proof/Laws/Admission.lean ====
section
/-! SUPPORT. What the orderings of admission and of the shed stack do to a list, said once: they put an entry in its
place and lose none. -/

namespace Sys2Proof.Machine

theorem insertBySeq_perm (c : Candidate) (l : List Candidate) : (insertBySeq c l).Perm (c :: l) := by
  induction l with
  | nil => exact .refl _
  | cons d rest ih =>
    unfold insertBySeq
    split
    · exact .refl _
    · exact (ih.cons d).trans (.swap c d rest)

theorem sortBySeq_perm (l : List Candidate) : (sortBySeq l).Perm l := by
  induction l with
  | nil => exact .refl _
  | cons c rest ih => exact (insertBySeq_perm c _).trans (ih.cons c)

theorem insertBySeq_sorted (c : Candidate) (l : List Candidate)
    (h : l.Pairwise fun d e => d.x.seq.toNat ≤ e.x.seq.toNat) :
    (insertBySeq c l).Pairwise fun d e => d.x.seq.toNat ≤ e.x.seq.toNat := by
  induction l with
  | nil => exact List.pairwise_singleton _ _
  | cons d rest ih =>
    have hd := (List.pairwise_cons.mp h).1
    unfold insertBySeq
    split
    case isTrue k =>
      refine List.pairwise_cons.mpr ⟨fun e he => ?_, h⟩
      rcases List.mem_cons.mp he with rfl | he
      · exact k
      · exact Nat.le_trans k (hd e he)
    case isFalse k =>
      refine List.pairwise_cons.mpr ⟨fun e he => ?_, ih (List.pairwise_cons.mp h).2⟩
      rcases List.mem_cons.mp ((insertBySeq_perm c rest).mem_iff.mp he) with rfl | he
      · exact Nat.le_of_lt (Nat.lt_of_not_le k)
      · exact hd e he

theorem sortBySeq_sorted (l : List Candidate) : (sortBySeq l).Pairwise fun d e => d.x.seq.toNat ≤ e.x.seq.toNat := by
  induction l with
  | nil => exact .nil
  | cons c rest ih => exact insertBySeq_sorted c _ ih

theorem insertUnlisted_perm (e : ShedEntry) (l : List ShedEntry) : (insertUnlisted e l).Perm (e :: l) := by
  induction l with
  | nil => exact .refl _
  | cons d rest ih =>
    unfold insertUnlisted
    split
    · exact .refl _
    · exact (ih.cons d).trans (.swap e d rest)

theorem insertUnlisted_sorted (e : ShedEntry) (l : List ShedEntry) (h : l.Pairwise fun c d => c.bay ≤ d.bay) :
    (insertUnlisted e l).Pairwise fun c d => c.bay ≤ d.bay := by
  induction l with
  | nil => exact List.pairwise_singleton _ _
  | cons d rest ih =>
    have hd := (List.pairwise_cons.mp h).1
    unfold insertUnlisted
    split
    case isTrue k =>
      refine List.pairwise_cons.mpr ⟨fun c hc => ?_, h⟩
      rcases List.mem_cons.mp hc with rfl | hc
      · exact k
      · exact le_trans k (hd c hc)
    case isFalse k =>
      refine List.pairwise_cons.mpr ⟨fun c hc => ?_, ih (List.pairwise_cons.mp h).2⟩
      rcases List.mem_cons.mp ((insertUnlisted_perm e rest).mem_iff.mp hc) with rfl | hc
      · exact le_of_lt (lt_of_not_ge k)
      · exact hd c hc

end Sys2Proof.Machine
end

