-- ==== Sys2Proof/Laws/State.lean ====
section
/-! SUPPORT. What each update of the state leaves unchanged, and what reading an entry of a table gives after a write. -/

namespace Sys2Proof.Machine

/-! ## Reading a vector after a write -/

@[simp] theorem put_self {α : Type} {n : Nat} (v : Vector α n) (i : Fin n) (x : α) : (put v i x)[i.val] = x := by
  simp [put]

theorem put_ne {α : Type} {n : Nat} (v : Vector α n) (i j : Fin n) (x : α) (h : j ≠ i) :
    (put v i x)[j.val] = v[j.val] := by
  have : i.val ≠ j.val := fun e => h (Fin.ext e.symm)
  simp [put, this]

theorem put_at {α : Type} {n : Nat} (v : Vector α n) (i j : Fin n) (x : α) :
    (put v i x)[j.val] = if j = i then x else v[j.val] := by
  by_cases h : j = i
  · subst h; simp
  · simp [h, put_ne v i j x h]

/-! ## Reading an entry after a write -/

theorem bay_modBay (s : State) (b c : BayId) (f : Bay → Bay) :
    (s.modBay b f).bay c = if c = b then f (s.bay b) else s.bay c := put_at ..

@[simp] theorem bay_modBay_self (s : State) (b : BayId) (f : Bay → Bay) : (s.modBay b f).bay b = f (s.bay b) := by
  simp [bay_modBay]

theorem record_modRecord (s : State) (r q : RecordId) (f : Record → Record) :
    (s.modRecord r f).record q = if q = r then f (s.record r) else s.record q := put_at ..

@[simp] theorem record_modRecord_self (s : State) (r : RecordId) (f : Record → Record) :
    (s.modRecord r f).record r = f (s.record r) := by simp [record_modRecord]

theorem record_takeRecord (s : State) (r q : RecordId) (g : Record) :
    (s.takeRecord r g).record q = if q = r then g else s.record q := put_at ..

theorem page_modPage (s : State) (pg q : PageId) (f : Page → Page) :
    (s.modPage pg f).page q = if q = pg then f (s.page pg) else s.page q := put_at ..

theorem plan_setPlan (s : State) (p q : PlanId) (e : Option PlanEntry) :
    (s.setPlan p e).plan q = if q = p then e else s.plan q := put_at ..

theorem node_modNode (s : State) (k q : NodeId) (f : Node → Node) :
    (s.modNode k f).node q = if q = k then f (s.node k) else s.node q := put_at ..

@[simp] theorem port_modPort_self (s : State) (p : Port) (f : PortContext → PortContext) :
    (s.modPort p f).port p = f (s.port p) := by cases p <;> rfl

theorem port_modPort (s : State) (p q : Port) (f : PortContext → PortContext) :
    (s.modPort p f).port q = if q = p then f (s.port p) else s.port q := by cases p <;> cases q <;> rfl

/-! ## What each update leaves unchanged -/

@[simp] theorem modBay_clc (s : State) (b : BayId) (f : Bay → Bay) : (s.modBay b f).clc = s.clc := rfl
@[simp] theorem modBay_ale (s : State) (b : BayId) (f : Bay → Bay) : (s.modBay b f).ale = s.ale := rfl
@[simp] theorem modBay_ssm (s : State) (b : BayId) (f : Bay → Bay) : (s.modBay b f).ssm = s.ssm := rfl
@[simp] theorem modBay_tfs (s : State) (b : BayId) (f : Bay → Bay) : (s.modBay b f).tfs = s.tfs := rfl
@[simp] theorem modBay_rcq (s : State) (b : BayId) (f : Bay → Bay) : (s.modBay b f).rcq = s.rcq := rfl
@[simp] theorem modBay_ivm (s : State) (b : BayId) (f : Bay → Bay) : (s.modBay b f).ivm = s.ivm := rfl
@[simp] theorem modBay_mpt (s : State) (b : BayId) (f : Bay → Bay) : (s.modBay b f).mpt = s.mpt := rfl
@[simp] theorem modBay_sst (s : State) (b : BayId) (f : Bay → Bay) : (s.modBay b f).sst = s.sst := rfl
@[simp] theorem modBay_lines (s : State) (b : BayId) (f : Bay → Bay) : (s.modBay b f).lines = s.lines := rfl
@[simp] theorem modBay_pending (s : State) (b : BayId) (f : Bay → Bay) : (s.modBay b f).pending = s.pending := rfl

@[simp] theorem setSession_clc (s : State) (b : BayId) (r : Option RecordId) : (s.setSession b r).clc = s.clc := rfl
@[simp] theorem setSession_ale (s : State) (b : BayId) (r : Option RecordId) : (s.setSession b r).ale = s.ale := rfl
@[simp] theorem setSession_ssm (s : State) (b : BayId) (r : Option RecordId) : (s.setSession b r).ssm = s.ssm := rfl
@[simp] theorem setSession_tfs (s : State) (b : BayId) (r : Option RecordId) : (s.setSession b r).tfs = s.tfs := rfl
@[simp] theorem setSession_rcq (s : State) (b : BayId) (r : Option RecordId) : (s.setSession b r).rcq = s.rcq := rfl
@[simp] theorem setSession_ivm (s : State) (b : BayId) (r : Option RecordId) : (s.setSession b r).ivm = s.ivm := rfl
@[simp] theorem setSession_mpt (s : State) (b : BayId) (r : Option RecordId) : (s.setSession b r).mpt = s.mpt := rfl
@[simp] theorem setSession_sst (s : State) (b : BayId) (r : Option RecordId) : (s.setSession b r).sst = s.sst := rfl
@[simp] theorem setSession_lines (s : State) (b : BayId) (r : Option RecordId) : (s.setSession b r).lines = s.lines := rfl
@[simp] theorem setSession_pending (s : State) (b : BayId) (r : Option RecordId) : (s.setSession b r).pending = s.pending := rfl

@[simp] theorem addUnbilled_clc (s : State) (b : BayId) (e : Nat) : (s.addUnbilled b e).clc = s.clc := rfl
@[simp] theorem addUnbilled_ale (s : State) (b : BayId) (e : Nat) : (s.addUnbilled b e).ale = s.ale := rfl
@[simp] theorem addUnbilled_ssm (s : State) (b : BayId) (e : Nat) : (s.addUnbilled b e).ssm = s.ssm := rfl
@[simp] theorem addUnbilled_tfs (s : State) (b : BayId) (e : Nat) : (s.addUnbilled b e).tfs = s.tfs := rfl
@[simp] theorem addUnbilled_rcq (s : State) (b : BayId) (e : Nat) : (s.addUnbilled b e).rcq = s.rcq := rfl
@[simp] theorem addUnbilled_ivm (s : State) (b : BayId) (e : Nat) : (s.addUnbilled b e).ivm = s.ivm := rfl
@[simp] theorem addUnbilled_mpt (s : State) (b : BayId) (e : Nat) : (s.addUnbilled b e).mpt = s.mpt := rfl
@[simp] theorem addUnbilled_sst (s : State) (b : BayId) (e : Nat) : (s.addUnbilled b e).sst = s.sst := rfl
@[simp] theorem addUnbilled_lines (s : State) (b : BayId) (e : Nat) : (s.addUnbilled b e).lines = s.lines := rfl
@[simp] theorem addUnbilled_pending (s : State) (b : BayId) (e : Nat) : (s.addUnbilled b e).pending = s.pending := rfl

@[simp] theorem countValid_clc (s : State) (b : BayId) (c : Bool) : (s.countValid b c).clc = s.clc := rfl
@[simp] theorem countValid_ale (s : State) (b : BayId) (c : Bool) : (s.countValid b c).ale = s.ale := rfl
@[simp] theorem countValid_ssm (s : State) (b : BayId) (c : Bool) : (s.countValid b c).ssm = s.ssm := rfl
@[simp] theorem countValid_tfs (s : State) (b : BayId) (c : Bool) : (s.countValid b c).tfs = s.tfs := rfl
@[simp] theorem countValid_rcq (s : State) (b : BayId) (c : Bool) : (s.countValid b c).rcq = s.rcq := rfl
@[simp] theorem countValid_ivm (s : State) (b : BayId) (c : Bool) : (s.countValid b c).ivm = s.ivm := rfl
@[simp] theorem countValid_mpt (s : State) (b : BayId) (c : Bool) : (s.countValid b c).mpt = s.mpt := rfl
@[simp] theorem countValid_sst (s : State) (b : BayId) (c : Bool) : (s.countValid b c).sst = s.sst := rfl
@[simp] theorem countValid_lines (s : State) (b : BayId) (c : Bool) : (s.countValid b c).lines = s.lines := rfl
@[simp] theorem countValid_pending (s : State) (b : BayId) (c : Bool) : (s.countValid b c).pending = s.pending := rfl

@[simp] theorem hear_clc (s : State) (b : BayId) : (s.hear b).clc = s.clc := rfl
@[simp] theorem hear_ale (s : State) (b : BayId) : (s.hear b).ale = s.ale := rfl
@[simp] theorem hear_ssm (s : State) (b : BayId) : (s.hear b).ssm = s.ssm := rfl
@[simp] theorem hear_tfs (s : State) (b : BayId) : (s.hear b).tfs = s.tfs := rfl
@[simp] theorem hear_rcq (s : State) (b : BayId) : (s.hear b).rcq = s.rcq := rfl
@[simp] theorem hear_ivm (s : State) (b : BayId) : (s.hear b).ivm = s.ivm := rfl
@[simp] theorem hear_mpt (s : State) (b : BayId) : (s.hear b).mpt = s.mpt := rfl
@[simp] theorem hear_sst (s : State) (b : BayId) : (s.hear b).sst = s.sst := rfl
@[simp] theorem hear_lines (s : State) (b : BayId) : (s.hear b).lines = s.lines := rfl
@[simp] theorem hear_pending (s : State) (b : BayId) : (s.hear b).pending = s.pending := rfl

@[simp] theorem beginSweep_clc (s : State) : s.beginSweep.clc = s.clc := rfl
@[simp] theorem beginSweep_ale (s : State) : s.beginSweep.ale = s.ale := rfl
@[simp] theorem beginSweep_ssm (s : State) : s.beginSweep.ssm = s.ssm := rfl
@[simp] theorem beginSweep_tfs (s : State) : s.beginSweep.tfs = s.tfs := rfl
@[simp] theorem beginSweep_rcq (s : State) : s.beginSweep.rcq = s.rcq := rfl
@[simp] theorem beginSweep_ivm (s : State) : s.beginSweep.ivm = s.ivm := rfl
@[simp] theorem beginSweep_mpt (s : State) : s.beginSweep.mpt = s.mpt := rfl
@[simp] theorem beginSweep_sst (s : State) : s.beginSweep.sst = s.sst := rfl
@[simp] theorem beginSweep_lines (s : State) : s.beginSweep.lines = s.lines := rfl
@[simp] theorem beginSweep_pending (s : State) : s.beginSweep.pending = s.pending := rfl

@[simp] theorem modRecord_blc (s : State) (r : RecordId) (f : Record → Record) : (s.modRecord r f).blc = s.blc := rfl
@[simp] theorem modRecord_clc (s : State) (r : RecordId) (f : Record → Record) : (s.modRecord r f).clc = s.clc := rfl
@[simp] theorem modRecord_ale (s : State) (r : RecordId) (f : Record → Record) : (s.modRecord r f).ale = s.ale := rfl
@[simp] theorem modRecord_tfs (s : State) (r : RecordId) (f : Record → Record) : (s.modRecord r f).tfs = s.tfs := rfl
@[simp] theorem modRecord_rcq (s : State) (r : RecordId) (f : Record → Record) : (s.modRecord r f).rcq = s.rcq := rfl
@[simp] theorem modRecord_ivm (s : State) (r : RecordId) (f : Record → Record) : (s.modRecord r f).ivm = s.ivm := rfl
@[simp] theorem modRecord_mpt (s : State) (r : RecordId) (f : Record → Record) : (s.modRecord r f).mpt = s.mpt := rfl
@[simp] theorem modRecord_sst (s : State) (r : RecordId) (f : Record → Record) : (s.modRecord r f).sst = s.sst := rfl
@[simp] theorem modRecord_lines (s : State) (r : RecordId) (f : Record → Record) : (s.modRecord r f).lines = s.lines := rfl
@[simp] theorem modRecord_pending (s : State) (r : RecordId) (f : Record → Record) : (s.modRecord r f).pending = s.pending := rfl

@[simp] theorem takeRecord_blc (s : State) (r : RecordId) (g : Record) : (s.takeRecord r g).blc = s.blc := rfl
@[simp] theorem takeRecord_clc (s : State) (r : RecordId) (g : Record) : (s.takeRecord r g).clc = s.clc := rfl
@[simp] theorem takeRecord_ale (s : State) (r : RecordId) (g : Record) : (s.takeRecord r g).ale = s.ale := rfl
@[simp] theorem takeRecord_tfs (s : State) (r : RecordId) (g : Record) : (s.takeRecord r g).tfs = s.tfs := rfl
@[simp] theorem takeRecord_rcq (s : State) (r : RecordId) (g : Record) : (s.takeRecord r g).rcq = s.rcq := rfl
@[simp] theorem takeRecord_ivm (s : State) (r : RecordId) (g : Record) : (s.takeRecord r g).ivm = s.ivm := rfl
@[simp] theorem takeRecord_mpt (s : State) (r : RecordId) (g : Record) : (s.takeRecord r g).mpt = s.mpt := rfl
@[simp] theorem takeRecord_sst (s : State) (r : RecordId) (g : Record) : (s.takeRecord r g).sst = s.sst := rfl
@[simp] theorem takeRecord_lines (s : State) (r : RecordId) (g : Record) : (s.takeRecord r g).lines = s.lines := rfl
@[simp] theorem takeRecord_pending (s : State) (r : RecordId) (g : Record) : (s.takeRecord r g).pending = s.pending := rfl

@[simp] theorem freeRecordOf_blc (s : State) (r : RecordId) : (s.freeRecordOf r).blc = s.blc := rfl
@[simp] theorem freeRecordOf_clc (s : State) (r : RecordId) : (s.freeRecordOf r).clc = s.clc := rfl
@[simp] theorem freeRecordOf_ale (s : State) (r : RecordId) : (s.freeRecordOf r).ale = s.ale := rfl
@[simp] theorem freeRecordOf_tfs (s : State) (r : RecordId) : (s.freeRecordOf r).tfs = s.tfs := rfl
@[simp] theorem freeRecordOf_rcq (s : State) (r : RecordId) : (s.freeRecordOf r).rcq = s.rcq := rfl
@[simp] theorem freeRecordOf_ivm (s : State) (r : RecordId) : (s.freeRecordOf r).ivm = s.ivm := rfl
@[simp] theorem freeRecordOf_mpt (s : State) (r : RecordId) : (s.freeRecordOf r).mpt = s.mpt := rfl
@[simp] theorem freeRecordOf_sst (s : State) (r : RecordId) : (s.freeRecordOf r).sst = s.sst := rfl
@[simp] theorem freeRecordOf_lines (s : State) (r : RecordId) : (s.freeRecordOf r).lines = s.lines := rfl
@[simp] theorem freeRecordOf_pending (s : State) (r : RecordId) : (s.freeRecordOf r).pending = s.pending := rfl

@[simp] theorem setEndedLatch_blc (s : State) (b : BayId) (v : Bool) : (s.setEndedLatch b v).blc = s.blc := rfl
@[simp] theorem setEndedLatch_clc (s : State) (b : BayId) (v : Bool) : (s.setEndedLatch b v).clc = s.clc := rfl
@[simp] theorem setEndedLatch_ale (s : State) (b : BayId) (v : Bool) : (s.setEndedLatch b v).ale = s.ale := rfl
@[simp] theorem setEndedLatch_tfs (s : State) (b : BayId) (v : Bool) : (s.setEndedLatch b v).tfs = s.tfs := rfl
@[simp] theorem setEndedLatch_rcq (s : State) (b : BayId) (v : Bool) : (s.setEndedLatch b v).rcq = s.rcq := rfl
@[simp] theorem setEndedLatch_ivm (s : State) (b : BayId) (v : Bool) : (s.setEndedLatch b v).ivm = s.ivm := rfl
@[simp] theorem setEndedLatch_mpt (s : State) (b : BayId) (v : Bool) : (s.setEndedLatch b v).mpt = s.mpt := rfl
@[simp] theorem setEndedLatch_sst (s : State) (b : BayId) (v : Bool) : (s.setEndedLatch b v).sst = s.sst := rfl
@[simp] theorem setEndedLatch_lines (s : State) (b : BayId) (v : Bool) : (s.setEndedLatch b v).lines = s.lines := rfl
@[simp] theorem setEndedLatch_pending (s : State) (b : BayId) (v : Bool) : (s.setEndedLatch b v).pending = s.pending := rfl

@[simp] theorem setNoContextMark_blc (s : State) (b : BayId) (v : Bool) : (s.setNoContextMark b v).blc = s.blc := rfl
@[simp] theorem setNoContextMark_clc (s : State) (b : BayId) (v : Bool) : (s.setNoContextMark b v).clc = s.clc := rfl
@[simp] theorem setNoContextMark_ale (s : State) (b : BayId) (v : Bool) : (s.setNoContextMark b v).ale = s.ale := rfl
@[simp] theorem setNoContextMark_tfs (s : State) (b : BayId) (v : Bool) : (s.setNoContextMark b v).tfs = s.tfs := rfl
@[simp] theorem setNoContextMark_rcq (s : State) (b : BayId) (v : Bool) : (s.setNoContextMark b v).rcq = s.rcq := rfl
@[simp] theorem setNoContextMark_ivm (s : State) (b : BayId) (v : Bool) : (s.setNoContextMark b v).ivm = s.ivm := rfl
@[simp] theorem setNoContextMark_mpt (s : State) (b : BayId) (v : Bool) : (s.setNoContextMark b v).mpt = s.mpt := rfl
@[simp] theorem setNoContextMark_sst (s : State) (b : BayId) (v : Bool) : (s.setNoContextMark b v).sst = s.sst := rfl
@[simp] theorem setNoContextMark_lines (s : State) (b : BayId) (v : Bool) : (s.setNoContextMark b v).lines = s.lines := rfl
@[simp] theorem setNoContextMark_pending (s : State) (b : BayId) (v : Bool) : (s.setNoContextMark b v).pending = s.pending := rfl

@[simp] theorem setWaiting_blc (s : State) (w : List RecordId) : (s.setWaiting w).blc = s.blc := rfl
@[simp] theorem setWaiting_clc (s : State) (w : List RecordId) : (s.setWaiting w).clc = s.clc := rfl
@[simp] theorem setWaiting_ale (s : State) (w : List RecordId) : (s.setWaiting w).ale = s.ale := rfl
@[simp] theorem setWaiting_tfs (s : State) (w : List RecordId) : (s.setWaiting w).tfs = s.tfs := rfl
@[simp] theorem setWaiting_rcq (s : State) (w : List RecordId) : (s.setWaiting w).rcq = s.rcq := rfl
@[simp] theorem setWaiting_ivm (s : State) (w : List RecordId) : (s.setWaiting w).ivm = s.ivm := rfl
@[simp] theorem setWaiting_mpt (s : State) (w : List RecordId) : (s.setWaiting w).mpt = s.mpt := rfl
@[simp] theorem setWaiting_sst (s : State) (w : List RecordId) : (s.setWaiting w).sst = s.sst := rfl
@[simp] theorem setWaiting_lines (s : State) (w : List RecordId) : (s.setWaiting w).lines = s.lines := rfl
@[simp] theorem setWaiting_pending (s : State) (w : List RecordId) : (s.setWaiting w).pending = s.pending := rfl

@[simp] theorem account_blc (s : State) (r : RecordId) (e : Nat) : (s.account r e).blc = s.blc := rfl
@[simp] theorem account_clc (s : State) (r : RecordId) (e : Nat) : (s.account r e).clc = s.clc := rfl
@[simp] theorem account_ale (s : State) (r : RecordId) (e : Nat) : (s.account r e).ale = s.ale := rfl
@[simp] theorem account_tfs (s : State) (r : RecordId) (e : Nat) : (s.account r e).tfs = s.tfs := rfl
@[simp] theorem account_rcq (s : State) (r : RecordId) (e : Nat) : (s.account r e).rcq = s.rcq := rfl
@[simp] theorem account_ivm (s : State) (r : RecordId) (e : Nat) : (s.account r e).ivm = s.ivm := rfl
@[simp] theorem account_mpt (s : State) (r : RecordId) (e : Nat) : (s.account r e).mpt = s.mpt := rfl
@[simp] theorem account_sst (s : State) (r : RecordId) (e : Nat) : (s.account r e).sst = s.sst := rfl
@[simp] theorem account_lines (s : State) (r : RecordId) (e : Nat) : (s.account r e).lines = s.lines := rfl
@[simp] theorem account_pending (s : State) (r : RecordId) (e : Nat) : (s.account r e).pending = s.pending := rfl

@[simp] theorem modPage_blc (s : State) (pg : PageId) (f : Page → Page) : (s.modPage pg f).blc = s.blc := rfl
@[simp] theorem modPage_clc (s : State) (pg : PageId) (f : Page → Page) : (s.modPage pg f).clc = s.clc := rfl
@[simp] theorem modPage_ale (s : State) (pg : PageId) (f : Page → Page) : (s.modPage pg f).ale = s.ale := rfl
@[simp] theorem modPage_ssm (s : State) (pg : PageId) (f : Page → Page) : (s.modPage pg f).ssm = s.ssm := rfl
@[simp] theorem modPage_rcq (s : State) (pg : PageId) (f : Page → Page) : (s.modPage pg f).rcq = s.rcq := rfl
@[simp] theorem modPage_ivm (s : State) (pg : PageId) (f : Page → Page) : (s.modPage pg f).ivm = s.ivm := rfl
@[simp] theorem modPage_mpt (s : State) (pg : PageId) (f : Page → Page) : (s.modPage pg f).mpt = s.mpt := rfl
@[simp] theorem modPage_sst (s : State) (pg : PageId) (f : Page → Page) : (s.modPage pg f).sst = s.sst := rfl
@[simp] theorem modPage_lines (s : State) (pg : PageId) (f : Page → Page) : (s.modPage pg f).lines = s.lines := rfl
@[simp] theorem modPage_pending (s : State) (pg : PageId) (f : Page → Page) : (s.modPage pg f).pending = s.pending := rfl

@[simp] theorem setPlan_blc (s : State) (p : PlanId) (e : Option PlanEntry) : (s.setPlan p e).blc = s.blc := rfl
@[simp] theorem setPlan_clc (s : State) (p : PlanId) (e : Option PlanEntry) : (s.setPlan p e).clc = s.clc := rfl
@[simp] theorem setPlan_ale (s : State) (p : PlanId) (e : Option PlanEntry) : (s.setPlan p e).ale = s.ale := rfl
@[simp] theorem setPlan_ssm (s : State) (p : PlanId) (e : Option PlanEntry) : (s.setPlan p e).ssm = s.ssm := rfl
@[simp] theorem setPlan_rcq (s : State) (p : PlanId) (e : Option PlanEntry) : (s.setPlan p e).rcq = s.rcq := rfl
@[simp] theorem setPlan_ivm (s : State) (p : PlanId) (e : Option PlanEntry) : (s.setPlan p e).ivm = s.ivm := rfl
@[simp] theorem setPlan_mpt (s : State) (p : PlanId) (e : Option PlanEntry) : (s.setPlan p e).mpt = s.mpt := rfl
@[simp] theorem setPlan_sst (s : State) (p : PlanId) (e : Option PlanEntry) : (s.setPlan p e).sst = s.sst := rfl
@[simp] theorem setPlan_lines (s : State) (p : PlanId) (e : Option PlanEntry) : (s.setPlan p e).lines = s.lines := rfl
@[simp] theorem setPlan_pending (s : State) (p : PlanId) (e : Option PlanEntry) : (s.setPlan p e).pending = s.pending := rfl

@[simp] theorem setStaging_blc (s : State) (st : Option Staging) : (s.setStaging st).blc = s.blc := rfl
@[simp] theorem setStaging_clc (s : State) (st : Option Staging) : (s.setStaging st).clc = s.clc := rfl
@[simp] theorem setStaging_ale (s : State) (st : Option Staging) : (s.setStaging st).ale = s.ale := rfl
@[simp] theorem setStaging_ssm (s : State) (st : Option Staging) : (s.setStaging st).ssm = s.ssm := rfl
@[simp] theorem setStaging_rcq (s : State) (st : Option Staging) : (s.setStaging st).rcq = s.rcq := rfl
@[simp] theorem setStaging_ivm (s : State) (st : Option Staging) : (s.setStaging st).ivm = s.ivm := rfl
@[simp] theorem setStaging_mpt (s : State) (st : Option Staging) : (s.setStaging st).mpt = s.mpt := rfl
@[simp] theorem setStaging_sst (s : State) (st : Option Staging) : (s.setStaging st).sst = s.sst := rfl
@[simp] theorem setStaging_lines (s : State) (st : Option Staging) : (s.setStaging st).lines = s.lines := rfl
@[simp] theorem setStaging_pending (s : State) (st : Option Staging) : (s.setStaging st).pending = s.pending := rfl

@[simp] theorem addPin_blc (s : State) (pg : PageId) : (s.addPin pg).blc = s.blc := rfl
@[simp] theorem addPin_clc (s : State) (pg : PageId) : (s.addPin pg).clc = s.clc := rfl
@[simp] theorem addPin_ale (s : State) (pg : PageId) : (s.addPin pg).ale = s.ale := rfl
@[simp] theorem addPin_ssm (s : State) (pg : PageId) : (s.addPin pg).ssm = s.ssm := rfl
@[simp] theorem addPin_rcq (s : State) (pg : PageId) : (s.addPin pg).rcq = s.rcq := rfl
@[simp] theorem addPin_ivm (s : State) (pg : PageId) : (s.addPin pg).ivm = s.ivm := rfl
@[simp] theorem addPin_mpt (s : State) (pg : PageId) : (s.addPin pg).mpt = s.mpt := rfl
@[simp] theorem addPin_sst (s : State) (pg : PageId) : (s.addPin pg).sst = s.sst := rfl
@[simp] theorem addPin_lines (s : State) (pg : PageId) : (s.addPin pg).lines = s.lines := rfl
@[simp] theorem addPin_pending (s : State) (pg : PageId) : (s.addPin pg).pending = s.pending := rfl

@[simp] theorem releasePin_blc (s : State) (pg : PageId) : (s.releasePin pg).blc = s.blc := rfl
@[simp] theorem releasePin_clc (s : State) (pg : PageId) : (s.releasePin pg).clc = s.clc := rfl
@[simp] theorem releasePin_ale (s : State) (pg : PageId) : (s.releasePin pg).ale = s.ale := rfl
@[simp] theorem releasePin_ssm (s : State) (pg : PageId) : (s.releasePin pg).ssm = s.ssm := rfl
@[simp] theorem releasePin_rcq (s : State) (pg : PageId) : (s.releasePin pg).rcq = s.rcq := rfl
@[simp] theorem releasePin_ivm (s : State) (pg : PageId) : (s.releasePin pg).ivm = s.ivm := rfl
@[simp] theorem releasePin_mpt (s : State) (pg : PageId) : (s.releasePin pg).mpt = s.mpt := rfl
@[simp] theorem releasePin_sst (s : State) (pg : PageId) : (s.releasePin pg).sst = s.sst := rfl
@[simp] theorem releasePin_lines (s : State) (pg : PageId) : (s.releasePin pg).lines = s.lines := rfl
@[simp] theorem releasePin_pending (s : State) (pg : PageId) : (s.releasePin pg).pending = s.pending := rfl

@[simp] theorem modNode_blc (s : State) (k : NodeId) (f : Node → Node) : (s.modNode k f).blc = s.blc := rfl
@[simp] theorem modNode_ale (s : State) (k : NodeId) (f : Node → Node) : (s.modNode k f).ale = s.ale := rfl
@[simp] theorem modNode_ssm (s : State) (k : NodeId) (f : Node → Node) : (s.modNode k f).ssm = s.ssm := rfl
@[simp] theorem modNode_tfs (s : State) (k : NodeId) (f : Node → Node) : (s.modNode k f).tfs = s.tfs := rfl
@[simp] theorem modNode_rcq (s : State) (k : NodeId) (f : Node → Node) : (s.modNode k f).rcq = s.rcq := rfl
@[simp] theorem modNode_ivm (s : State) (k : NodeId) (f : Node → Node) : (s.modNode k f).ivm = s.ivm := rfl
@[simp] theorem modNode_mpt (s : State) (k : NodeId) (f : Node → Node) : (s.modNode k f).mpt = s.mpt := rfl
@[simp] theorem modNode_sst (s : State) (k : NodeId) (f : Node → Node) : (s.modNode k f).sst = s.sst := rfl
@[simp] theorem modNode_lines (s : State) (k : NodeId) (f : Node → Node) : (s.modNode k f).lines = s.lines := rfl
@[simp] theorem modNode_pending (s : State) (k : NodeId) (f : Node → Node) : (s.modNode k f).pending = s.pending := rfl

@[simp] theorem modClc_blc (s : State) (f : CanopyLine → CanopyLine) : (s.modClc f).blc = s.blc := rfl
@[simp] theorem modClc_ale (s : State) (f : CanopyLine → CanopyLine) : (s.modClc f).ale = s.ale := rfl
@[simp] theorem modClc_ssm (s : State) (f : CanopyLine → CanopyLine) : (s.modClc f).ssm = s.ssm := rfl
@[simp] theorem modClc_tfs (s : State) (f : CanopyLine → CanopyLine) : (s.modClc f).tfs = s.tfs := rfl
@[simp] theorem modClc_rcq (s : State) (f : CanopyLine → CanopyLine) : (s.modClc f).rcq = s.rcq := rfl
@[simp] theorem modClc_ivm (s : State) (f : CanopyLine → CanopyLine) : (s.modClc f).ivm = s.ivm := rfl
@[simp] theorem modClc_mpt (s : State) (f : CanopyLine → CanopyLine) : (s.modClc f).mpt = s.mpt := rfl
@[simp] theorem modClc_sst (s : State) (f : CanopyLine → CanopyLine) : (s.modClc f).sst = s.sst := rfl
@[simp] theorem modClc_lines (s : State) (f : CanopyLine → CanopyLine) : (s.modClc f).lines = s.lines := rfl
@[simp] theorem modClc_pending (s : State) (f : CanopyLine → CanopyLine) : (s.modClc f).pending = s.pending := rfl

@[simp] theorem countReply_blc (s : State) (k : NodeId) (c : Bool) : (s.countReply k c).blc = s.blc := rfl
@[simp] theorem countReply_ale (s : State) (k : NodeId) (c : Bool) : (s.countReply k c).ale = s.ale := rfl
@[simp] theorem countReply_ssm (s : State) (k : NodeId) (c : Bool) : (s.countReply k c).ssm = s.ssm := rfl
@[simp] theorem countReply_tfs (s : State) (k : NodeId) (c : Bool) : (s.countReply k c).tfs = s.tfs := rfl
@[simp] theorem countReply_rcq (s : State) (k : NodeId) (c : Bool) : (s.countReply k c).rcq = s.rcq := rfl
@[simp] theorem countReply_ivm (s : State) (k : NodeId) (c : Bool) : (s.countReply k c).ivm = s.ivm := rfl
@[simp] theorem countReply_mpt (s : State) (k : NodeId) (c : Bool) : (s.countReply k c).mpt = s.mpt := rfl
@[simp] theorem countReply_sst (s : State) (k : NodeId) (c : Bool) : (s.countReply k c).sst = s.sst := rfl
@[simp] theorem countReply_lines (s : State) (k : NodeId) (c : Bool) : (s.countReply k c).lines = s.lines := rfl
@[simp] theorem countReply_pending (s : State) (k : NodeId) (c : Bool) : (s.countReply k c).pending = s.pending := rfl

@[simp] theorem addSample_blc (s : State) (k : NodeId) (w : Int) : (s.addSample k w).blc = s.blc := rfl
@[simp] theorem addSample_ale (s : State) (k : NodeId) (w : Int) : (s.addSample k w).ale = s.ale := rfl
@[simp] theorem addSample_ssm (s : State) (k : NodeId) (w : Int) : (s.addSample k w).ssm = s.ssm := rfl
@[simp] theorem addSample_tfs (s : State) (k : NodeId) (w : Int) : (s.addSample k w).tfs = s.tfs := rfl
@[simp] theorem addSample_rcq (s : State) (k : NodeId) (w : Int) : (s.addSample k w).rcq = s.rcq := rfl
@[simp] theorem addSample_ivm (s : State) (k : NodeId) (w : Int) : (s.addSample k w).ivm = s.ivm := rfl
@[simp] theorem addSample_mpt (s : State) (k : NodeId) (w : Int) : (s.addSample k w).mpt = s.mpt := rfl
@[simp] theorem addSample_sst (s : State) (k : NodeId) (w : Int) : (s.addSample k w).sst = s.sst := rfl
@[simp] theorem addSample_lines (s : State) (k : NodeId) (w : Int) : (s.addSample k w).lines = s.lines := rfl
@[simp] theorem addSample_pending (s : State) (k : NodeId) (w : Int) : (s.addSample k w).pending = s.pending := rfl

@[simp] theorem setBatteryWindow_blc (s : State) (x : Sample) : (s.setBatteryWindow x).blc = s.blc := rfl
@[simp] theorem setBatteryWindow_ale (s : State) (x : Sample) : (s.setBatteryWindow x).ale = s.ale := rfl
@[simp] theorem setBatteryWindow_ssm (s : State) (x : Sample) : (s.setBatteryWindow x).ssm = s.ssm := rfl
@[simp] theorem setBatteryWindow_tfs (s : State) (x : Sample) : (s.setBatteryWindow x).tfs = s.tfs := rfl
@[simp] theorem setBatteryWindow_rcq (s : State) (x : Sample) : (s.setBatteryWindow x).rcq = s.rcq := rfl
@[simp] theorem setBatteryWindow_ivm (s : State) (x : Sample) : (s.setBatteryWindow x).ivm = s.ivm := rfl
@[simp] theorem setBatteryWindow_mpt (s : State) (x : Sample) : (s.setBatteryWindow x).mpt = s.mpt := rfl
@[simp] theorem setBatteryWindow_sst (s : State) (x : Sample) : (s.setBatteryWindow x).sst = s.sst := rfl
@[simp] theorem setBatteryWindow_lines (s : State) (x : Sample) : (s.setBatteryWindow x).lines = s.lines := rfl
@[simp] theorem setBatteryWindow_pending (s : State) (x : Sample) : (s.setBatteryWindow x).pending = s.pending := rfl

@[simp] theorem closeWindows_blc (s : State) : s.closeWindows.blc = s.blc := rfl
@[simp] theorem closeWindows_ale (s : State) : s.closeWindows.ale = s.ale := rfl
@[simp] theorem closeWindows_ssm (s : State) : s.closeWindows.ssm = s.ssm := rfl
@[simp] theorem closeWindows_tfs (s : State) : s.closeWindows.tfs = s.tfs := rfl
@[simp] theorem closeWindows_rcq (s : State) : s.closeWindows.rcq = s.rcq := rfl
@[simp] theorem closeWindows_ivm (s : State) : s.closeWindows.ivm = s.ivm := rfl
@[simp] theorem closeWindows_mpt (s : State) : s.closeWindows.mpt = s.mpt := rfl
@[simp] theorem closeWindows_sst (s : State) : s.closeWindows.sst = s.sst := rfl
@[simp] theorem closeWindows_lines (s : State) : s.closeWindows.lines = s.lines := rfl
@[simp] theorem closeWindows_pending (s : State) : s.closeWindows.pending = s.pending := rfl

@[simp] theorem beginCycle_blc (s : State) : s.beginCycle.blc = s.blc := rfl
@[simp] theorem beginCycle_ale (s : State) : s.beginCycle.ale = s.ale := rfl
@[simp] theorem beginCycle_ssm (s : State) : s.beginCycle.ssm = s.ssm := rfl
@[simp] theorem beginCycle_tfs (s : State) : s.beginCycle.tfs = s.tfs := rfl
@[simp] theorem beginCycle_rcq (s : State) : s.beginCycle.rcq = s.rcq := rfl
@[simp] theorem beginCycle_ivm (s : State) : s.beginCycle.ivm = s.ivm := rfl
@[simp] theorem beginCycle_mpt (s : State) : s.beginCycle.mpt = s.mpt := rfl
@[simp] theorem beginCycle_sst (s : State) : s.beginCycle.sst = s.sst := rfl
@[simp] theorem beginCycle_lines (s : State) : s.beginCycle.lines = s.lines := rfl
@[simp] theorem beginCycle_pending (s : State) : s.beginCycle.pending = s.pending := rfl

@[simp] theorem setOverlay_blc (s : State) (o : Option Overlay) : (s.setOverlay o).blc = s.blc := rfl
@[simp] theorem setOverlay_clc (s : State) (o : Option Overlay) : (s.setOverlay o).clc = s.clc := rfl
@[simp] theorem setOverlay_ssm (s : State) (o : Option Overlay) : (s.setOverlay o).ssm = s.ssm := rfl
@[simp] theorem setOverlay_tfs (s : State) (o : Option Overlay) : (s.setOverlay o).tfs = s.tfs := rfl
@[simp] theorem setOverlay_rcq (s : State) (o : Option Overlay) : (s.setOverlay o).rcq = s.rcq := rfl
@[simp] theorem setOverlay_ivm (s : State) (o : Option Overlay) : (s.setOverlay o).ivm = s.ivm := rfl
@[simp] theorem setOverlay_mpt (s : State) (o : Option Overlay) : (s.setOverlay o).mpt = s.mpt := rfl
@[simp] theorem setOverlay_sst (s : State) (o : Option Overlay) : (s.setOverlay o).sst = s.sst := rfl
@[simp] theorem setOverlay_lines (s : State) (o : Option Overlay) : (s.setOverlay o).lines = s.lines := rfl
@[simp] theorem setOverlay_pending (s : State) (o : Option Overlay) : (s.setOverlay o).pending = s.pending := rfl

@[simp] theorem install_blc (s : State) (g : GrantSet) : (s.install g).blc = s.blc := rfl
@[simp] theorem install_clc (s : State) (g : GrantSet) : (s.install g).clc = s.clc := rfl
@[simp] theorem install_ssm (s : State) (g : GrantSet) : (s.install g).ssm = s.ssm := rfl
@[simp] theorem install_tfs (s : State) (g : GrantSet) : (s.install g).tfs = s.tfs := rfl
@[simp] theorem install_rcq (s : State) (g : GrantSet) : (s.install g).rcq = s.rcq := rfl
@[simp] theorem install_ivm (s : State) (g : GrantSet) : (s.install g).ivm = s.ivm := rfl
@[simp] theorem install_mpt (s : State) (g : GrantSet) : (s.install g).mpt = s.mpt := rfl
@[simp] theorem install_sst (s : State) (g : GrantSet) : (s.install g).sst = s.sst := rfl
@[simp] theorem install_lines (s : State) (g : GrantSet) : (s.install g).lines = s.lines := rfl
@[simp] theorem install_pending (s : State) (g : GrantSet) : (s.install g).pending = s.pending := rfl

@[simp] theorem setPendingRecords_blc (s : State) (l : List IntervalRecord) : (s.setPendingRecords l).blc = s.blc := rfl
@[simp] theorem setPendingRecords_clc (s : State) (l : List IntervalRecord) : (s.setPendingRecords l).clc = s.clc := rfl
@[simp] theorem setPendingRecords_ale (s : State) (l : List IntervalRecord) : (s.setPendingRecords l).ale = s.ale := rfl
@[simp] theorem setPendingRecords_ssm (s : State) (l : List IntervalRecord) : (s.setPendingRecords l).ssm = s.ssm := rfl
@[simp] theorem setPendingRecords_tfs (s : State) (l : List IntervalRecord) : (s.setPendingRecords l).tfs = s.tfs := rfl
@[simp] theorem setPendingRecords_rcq (s : State) (l : List IntervalRecord) : (s.setPendingRecords l).rcq = s.rcq := rfl
@[simp] theorem setPendingRecords_mpt (s : State) (l : List IntervalRecord) : (s.setPendingRecords l).mpt = s.mpt := rfl
@[simp] theorem setPendingRecords_sst (s : State) (l : List IntervalRecord) : (s.setPendingRecords l).sst = s.sst := rfl
@[simp] theorem setPendingRecords_lines (s : State) (l : List IntervalRecord) : (s.setPendingRecords l).lines = s.lines := rfl
@[simp] theorem setPendingRecords_pending (s : State) (l : List IntervalRecord) : (s.setPendingRecords l).pending = s.pending := rfl

@[simp] theorem beginInterval_blc (s : State) (t : SiteTime) (v : Bool) : (s.beginInterval t v).blc = s.blc := rfl
@[simp] theorem beginInterval_clc (s : State) (t : SiteTime) (v : Bool) : (s.beginInterval t v).clc = s.clc := rfl
@[simp] theorem beginInterval_ale (s : State) (t : SiteTime) (v : Bool) : (s.beginInterval t v).ale = s.ale := rfl
@[simp] theorem beginInterval_ssm (s : State) (t : SiteTime) (v : Bool) : (s.beginInterval t v).ssm = s.ssm := rfl
@[simp] theorem beginInterval_tfs (s : State) (t : SiteTime) (v : Bool) : (s.beginInterval t v).tfs = s.tfs := rfl
@[simp] theorem beginInterval_rcq (s : State) (t : SiteTime) (v : Bool) : (s.beginInterval t v).rcq = s.rcq := rfl
@[simp] theorem beginInterval_mpt (s : State) (t : SiteTime) (v : Bool) : (s.beginInterval t v).mpt = s.mpt := rfl
@[simp] theorem beginInterval_sst (s : State) (t : SiteTime) (v : Bool) : (s.beginInterval t v).sst = s.sst := rfl
@[simp] theorem beginInterval_lines (s : State) (t : SiteTime) (v : Bool) : (s.beginInterval t v).lines = s.lines := rfl
@[simp] theorem beginInterval_pending (s : State) (t : SiteTime) (v : Bool) : (s.beginInterval t v).pending = s.pending := rfl

@[simp] theorem startClock_blc (s : State) (t : SiteTime) : (s.startClock t).blc = s.blc := rfl
@[simp] theorem startClock_clc (s : State) (t : SiteTime) : (s.startClock t).clc = s.clc := rfl
@[simp] theorem startClock_ale (s : State) (t : SiteTime) : (s.startClock t).ale = s.ale := rfl
@[simp] theorem startClock_ssm (s : State) (t : SiteTime) : (s.startClock t).ssm = s.ssm := rfl
@[simp] theorem startClock_tfs (s : State) (t : SiteTime) : (s.startClock t).tfs = s.tfs := rfl
@[simp] theorem startClock_rcq (s : State) (t : SiteTime) : (s.startClock t).rcq = s.rcq := rfl
@[simp] theorem startClock_mpt (s : State) (t : SiteTime) : (s.startClock t).mpt = s.mpt := rfl
@[simp] theorem startClock_sst (s : State) (t : SiteTime) : (s.startClock t).sst = s.sst := rfl
@[simp] theorem startClock_lines (s : State) (t : SiteTime) : (s.startClock t).lines = s.lines := rfl
@[simp] theorem startClock_pending (s : State) (t : SiteTime) : (s.startClock t).pending = s.pending := rfl

@[simp] theorem setWorking_blc (s : State) (t : Settings) : (s.setWorking t).blc = s.blc := rfl
@[simp] theorem setWorking_clc (s : State) (t : Settings) : (s.setWorking t).clc = s.clc := rfl
@[simp] theorem setWorking_ale (s : State) (t : Settings) : (s.setWorking t).ale = s.ale := rfl
@[simp] theorem setWorking_ssm (s : State) (t : Settings) : (s.setWorking t).ssm = s.ssm := rfl
@[simp] theorem setWorking_tfs (s : State) (t : Settings) : (s.setWorking t).tfs = s.tfs := rfl
@[simp] theorem setWorking_rcq (s : State) (t : Settings) : (s.setWorking t).rcq = s.rcq := rfl
@[simp] theorem setWorking_ivm (s : State) (t : Settings) : (s.setWorking t).ivm = s.ivm := rfl
@[simp] theorem setWorking_mpt (s : State) (t : Settings) : (s.setWorking t).mpt = s.mpt := rfl
@[simp] theorem setWorking_lines (s : State) (t : Settings) : (s.setWorking t).lines = s.lines := rfl
@[simp] theorem setWorking_pending (s : State) (t : Settings) : (s.setWorking t).pending = s.pending := rfl

@[simp] theorem handSet_blc (s : State) (m : MeasurementSet) : (s.handSet m).blc = s.blc := rfl
@[simp] theorem handSet_clc (s : State) (m : MeasurementSet) : (s.handSet m).clc = s.clc := rfl
@[simp] theorem handSet_ssm (s : State) (m : MeasurementSet) : (s.handSet m).ssm = s.ssm := rfl
@[simp] theorem handSet_tfs (s : State) (m : MeasurementSet) : (s.handSet m).tfs = s.tfs := rfl
@[simp] theorem handSet_rcq (s : State) (m : MeasurementSet) : (s.handSet m).rcq = s.rcq := rfl
@[simp] theorem handSet_mpt (s : State) (m : MeasurementSet) : (s.handSet m).mpt = s.mpt := rfl
@[simp] theorem handSet_sst (s : State) (m : MeasurementSet) : (s.handSet m).sst = s.sst := rfl
@[simp] theorem handSet_lines (s : State) (m : MeasurementSet) : (s.handSet m).lines = s.lines := rfl
@[simp] theorem handSet_pending (s : State) (m : MeasurementSet) : (s.handSet m).pending = s.pending := rfl

@[simp] theorem advance_blc (s : State) (k : Nat) : (s.advance k).blc = s.blc := rfl
@[simp] theorem advance_clc (s : State) (k : Nat) : (s.advance k).clc = s.clc := rfl
@[simp] theorem advance_ssm (s : State) (k : Nat) : (s.advance k).ssm = s.ssm := rfl
@[simp] theorem advance_tfs (s : State) (k : Nat) : (s.advance k).tfs = s.tfs := rfl
@[simp] theorem advance_rcq (s : State) (k : Nat) : (s.advance k).rcq = s.rcq := rfl
@[simp] theorem advance_mpt (s : State) (k : Nat) : (s.advance k).mpt = s.mpt := rfl
@[simp] theorem advance_sst (s : State) (k : Nat) : (s.advance k).sst = s.sst := rfl
@[simp] theorem advance_lines (s : State) (k : Nat) : (s.advance k).lines = s.lines := rfl
@[simp] theorem advance_pending (s : State) (k : Nat) : (s.advance k).pending = s.pending := rfl

@[simp] theorem writeShedding_clc (s : State) (z : Shedding) (g : Vector Nat 16) : (s.writeShedding z g).clc = s.clc := rfl
@[simp] theorem writeShedding_ssm (s : State) (z : Shedding) (g : Vector Nat 16) : (s.writeShedding z g).ssm = s.ssm := rfl
@[simp] theorem writeShedding_tfs (s : State) (z : Shedding) (g : Vector Nat 16) : (s.writeShedding z g).tfs = s.tfs := rfl
@[simp] theorem writeShedding_rcq (s : State) (z : Shedding) (g : Vector Nat 16) : (s.writeShedding z g).rcq = s.rcq := rfl
@[simp] theorem writeShedding_ivm (s : State) (z : Shedding) (g : Vector Nat 16) : (s.writeShedding z g).ivm = s.ivm := rfl
@[simp] theorem writeShedding_mpt (s : State) (z : Shedding) (g : Vector Nat 16) : (s.writeShedding z g).mpt = s.mpt := rfl
@[simp] theorem writeShedding_sst (s : State) (z : Shedding) (g : Vector Nat 16) : (s.writeShedding z g).sst = s.sst := rfl
@[simp] theorem writeShedding_lines (s : State) (z : Shedding) (g : Vector Nat 16) : (s.writeShedding z g).lines = s.lines := rfl
@[simp] theorem writeShedding_pending (s : State) (z : Shedding) (g : Vector Nat 16) : (s.writeShedding z g).pending = s.pending := rfl

@[simp] theorem installSet_clc (s : State) (m : MeasurementSet) : (s.installSet m).clc = s.clc := rfl
@[simp] theorem installSet_ssm (s : State) (m : MeasurementSet) : (s.installSet m).ssm = s.ssm := rfl
@[simp] theorem installSet_tfs (s : State) (m : MeasurementSet) : (s.installSet m).tfs = s.tfs := rfl
@[simp] theorem installSet_rcq (s : State) (m : MeasurementSet) : (s.installSet m).rcq = s.rcq := rfl
@[simp] theorem installSet_ivm (s : State) (m : MeasurementSet) : (s.installSet m).ivm = s.ivm := rfl
@[simp] theorem installSet_mpt (s : State) (m : MeasurementSet) : (s.installSet m).mpt = s.mpt := rfl
@[simp] theorem installSet_sst (s : State) (m : MeasurementSet) : (s.installSet m).sst = s.sst := rfl
@[simp] theorem installSet_lines (s : State) (m : MeasurementSet) : (s.installSet m).lines = s.lines := rfl
@[simp] theorem installSet_pending (s : State) (m : MeasurementSet) : (s.installSet m).pending = s.pending := rfl

@[simp] theorem readMeter_clc (s : State) (b : BayId) (f : MeterFrame) : (s.readMeter b f).clc = s.clc := rfl
@[simp] theorem readMeter_ale (s : State) (b : BayId) (f : MeterFrame) : (s.readMeter b f).ale = s.ale := rfl
@[simp] theorem readMeter_ssm (s : State) (b : BayId) (f : MeterFrame) : (s.readMeter b f).ssm = s.ssm := rfl
@[simp] theorem readMeter_tfs (s : State) (b : BayId) (f : MeterFrame) : (s.readMeter b f).tfs = s.tfs := rfl
@[simp] theorem readMeter_rcq (s : State) (b : BayId) (f : MeterFrame) : (s.readMeter b f).rcq = s.rcq := rfl
@[simp] theorem readMeter_ivm (s : State) (b : BayId) (f : MeterFrame) : (s.readMeter b f).ivm = s.ivm := rfl
@[simp] theorem readMeter_mpt (s : State) (b : BayId) (f : MeterFrame) : (s.readMeter b f).mpt = s.mpt := rfl
@[simp] theorem readMeter_sst (s : State) (b : BayId) (f : MeterFrame) : (s.readMeter b f).sst = s.sst := rfl
@[simp] theorem readMeter_lines (s : State) (b : BayId) (f : MeterFrame) : (s.readMeter b f).lines = s.lines := rfl
@[simp] theorem readMeter_pending (s : State) (b : BayId) (f : MeterFrame) : (s.readMeter b f).pending = s.pending := rfl

@[simp] theorem sendGrant_clc (s : State) (b : BayId) : (s.sendGrant b).clc = s.clc := rfl
@[simp] theorem sendGrant_ale (s : State) (b : BayId) : (s.sendGrant b).ale = s.ale := rfl
@[simp] theorem sendGrant_ssm (s : State) (b : BayId) : (s.sendGrant b).ssm = s.ssm := rfl
@[simp] theorem sendGrant_tfs (s : State) (b : BayId) : (s.sendGrant b).tfs = s.tfs := rfl
@[simp] theorem sendGrant_rcq (s : State) (b : BayId) : (s.sendGrant b).rcq = s.rcq := rfl
@[simp] theorem sendGrant_ivm (s : State) (b : BayId) : (s.sendGrant b).ivm = s.ivm := rfl
@[simp] theorem sendGrant_mpt (s : State) (b : BayId) : (s.sendGrant b).mpt = s.mpt := rfl
@[simp] theorem sendGrant_sst (s : State) (b : BayId) : (s.sendGrant b).sst = s.sst := rfl
@[simp] theorem sendGrant_pending (s : State) (b : BayId) : (s.sendGrant b).pending = s.pending := rfl

@[simp] theorem modPort_blc (s : State) (p : Port) (f : PortContext → PortContext) : (s.modPort p f).blc = s.blc := by cases p <;> rfl
@[simp] theorem modPort_clc (s : State) (p : Port) (f : PortContext → PortContext) : (s.modPort p f).clc = s.clc := by cases p <;> rfl
@[simp] theorem modPort_ale (s : State) (p : Port) (f : PortContext → PortContext) : (s.modPort p f).ale = s.ale := by cases p <;> rfl
@[simp] theorem modPort_ssm (s : State) (p : Port) (f : PortContext → PortContext) : (s.modPort p f).ssm = s.ssm := by cases p <;> rfl
@[simp] theorem modPort_tfs (s : State) (p : Port) (f : PortContext → PortContext) : (s.modPort p f).tfs = s.tfs := by cases p <;> rfl
@[simp] theorem modPort_rcq (s : State) (p : Port) (f : PortContext → PortContext) : (s.modPort p f).rcq = s.rcq := by cases p <;> rfl
@[simp] theorem modPort_ivm (s : State) (p : Port) (f : PortContext → PortContext) : (s.modPort p f).ivm = s.ivm := by cases p <;> rfl
@[simp] theorem modPort_sst (s : State) (p : Port) (f : PortContext → PortContext) : (s.modPort p f).sst = s.sst := by cases p <;> rfl
@[simp] theorem modPort_lines (s : State) (p : Port) (f : PortContext → PortContext) : (s.modPort p f).lines = s.lines := by cases p <;> rfl
@[simp] theorem modPort_pending (s : State) (p : Port) (f : PortContext → PortContext) : (s.modPort p f).pending = s.pending := by cases p <;> rfl

@[simp] theorem notify_blc (s : State) (n : Notice) : (s.notify n).blc = s.blc := modPort_blc ..
@[simp] theorem notify_clc (s : State) (n : Notice) : (s.notify n).clc = s.clc := modPort_clc ..
@[simp] theorem notify_ale (s : State) (n : Notice) : (s.notify n).ale = s.ale := modPort_ale ..
@[simp] theorem notify_ssm (s : State) (n : Notice) : (s.notify n).ssm = s.ssm := modPort_ssm ..
@[simp] theorem notify_tfs (s : State) (n : Notice) : (s.notify n).tfs = s.tfs := modPort_tfs ..
@[simp] theorem notify_rcq (s : State) (n : Notice) : (s.notify n).rcq = s.rcq := modPort_rcq ..
@[simp] theorem notify_ivm (s : State) (n : Notice) : (s.notify n).ivm = s.ivm := modPort_ivm ..
@[simp] theorem notify_sst (s : State) (n : Notice) : (s.notify n).sst = s.sst := modPort_sst ..
@[simp] theorem notify_lines (s : State) (n : Notice) : (s.notify n).lines = s.lines := modPort_lines ..
@[simp] theorem notify_pending (s : State) (n : Notice) : (s.notify n).pending = s.pending := modPort_pending ..

@[simp] theorem send_blc (p : Port) (a : Answer) : (a.send p).blc = a.state.blc := modPort_blc ..
@[simp] theorem send_clc (p : Port) (a : Answer) : (a.send p).clc = a.state.clc := modPort_clc ..
@[simp] theorem send_ale (p : Port) (a : Answer) : (a.send p).ale = a.state.ale := modPort_ale ..
@[simp] theorem send_ssm (p : Port) (a : Answer) : (a.send p).ssm = a.state.ssm := modPort_ssm ..
@[simp] theorem send_tfs (p : Port) (a : Answer) : (a.send p).tfs = a.state.tfs := modPort_tfs ..
@[simp] theorem send_rcq (p : Port) (a : Answer) : (a.send p).rcq = a.state.rcq := modPort_rcq ..
@[simp] theorem send_ivm (p : Port) (a : Answer) : (a.send p).ivm = a.state.ivm := modPort_ivm ..
@[simp] theorem send_sst (p : Port) (a : Answer) : (a.send p).sst = a.state.sst := modPort_sst ..
@[simp] theorem send_lines (p : Port) (a : Answer) : (a.send p).lines = a.state.lines := modPort_lines ..
@[simp] theorem send_pending (p : Port) (a : Answer) : (a.send p).pending = a.state.pending := modPort_pending ..

/-! ## Reading an entry after an update of another table -/

@[simp] theorem bay_modRecord (s : State) (r : RecordId) (f : Record → Record) (c : BayId) : (s.modRecord r f).bay c = s.bay c := rfl
@[simp] theorem bay_takeRecord (s : State) (r : RecordId) (g : Record) (c : BayId) : (s.takeRecord r g).bay c = s.bay c := rfl
@[simp] theorem bay_freeRecordOf (s : State) (r : RecordId) (c : BayId) : (s.freeRecordOf r).bay c = s.bay c := rfl
@[simp] theorem bay_setEndedLatch (s : State) (b : BayId) (v : Bool) (c : BayId) : (s.setEndedLatch b v).bay c = s.bay c := rfl
@[simp] theorem bay_setNoContextMark (s : State) (b : BayId) (v : Bool) (c : BayId) : (s.setNoContextMark b v).bay c = s.bay c := rfl
@[simp] theorem bay_setWaiting (s : State) (w : List RecordId) (c : BayId) : (s.setWaiting w).bay c = s.bay c := rfl
@[simp] theorem bay_account (s : State) (r : RecordId) (e : Nat) (c : BayId) : (s.account r e).bay c = s.bay c := rfl
@[simp] theorem bay_modPage (s : State) (pg : PageId) (f : Page → Page) (c : BayId) : (s.modPage pg f).bay c = s.bay c := rfl
@[simp] theorem bay_setPlan (s : State) (p : PlanId) (e : Option PlanEntry) (c : BayId) : (s.setPlan p e).bay c = s.bay c := rfl
@[simp] theorem bay_setStaging (s : State) (st : Option Staging) (c : BayId) : (s.setStaging st).bay c = s.bay c := rfl
@[simp] theorem bay_addPin (s : State) (pg : PageId) (c : BayId) : (s.addPin pg).bay c = s.bay c := rfl
@[simp] theorem bay_releasePin (s : State) (pg : PageId) (c : BayId) : (s.releasePin pg).bay c = s.bay c := rfl
@[simp] theorem bay_modPort (s : State) (p : Port) (f : PortContext → PortContext) (c : BayId) : (s.modPort p f).bay c = s.bay c := by cases p <;> rfl
@[simp] theorem bay_notify (s : State) (n : Notice) (c : BayId) : (s.notify n).bay c = s.bay c := bay_modPort ..

@[simp] theorem record_modBay (s : State) (b : BayId) (f : Bay → Bay) (q : RecordId) : (s.modBay b f).record q = s.record q := rfl
@[simp] theorem record_setSession (s : State) (b : BayId) (r : Option RecordId) (q : RecordId) : (s.setSession b r).record q = s.record q := rfl
@[simp] theorem record_addUnbilled (s : State) (b : BayId) (e : Nat) (q : RecordId) : (s.addUnbilled b e).record q = s.record q := rfl
@[simp] theorem record_countValid (s : State) (b : BayId) (v : Bool) (q : RecordId) : (s.countValid b v).record q = s.record q := rfl
@[simp] theorem record_hear (s : State) (b : BayId) (q : RecordId) : (s.hear b).record q = s.record q := rfl
@[simp] theorem record_modPage (s : State) (pg : PageId) (f : Page → Page) (q : RecordId) : (s.modPage pg f).record q = s.record q := rfl
@[simp] theorem record_setPlan (s : State) (p : PlanId) (e : Option PlanEntry) (q : RecordId) : (s.setPlan p e).record q = s.record q := rfl
@[simp] theorem record_setStaging (s : State) (st : Option Staging) (q : RecordId) : (s.setStaging st).record q = s.record q := rfl
@[simp] theorem record_addPin (s : State) (pg : PageId) (q : RecordId) : (s.addPin pg).record q = s.record q := rfl
@[simp] theorem record_releasePin (s : State) (pg : PageId) (q : RecordId) : (s.releasePin pg).record q = s.record q := rfl
@[simp] theorem record_modPort (s : State) (p : Port) (f : PortContext → PortContext) (q : RecordId) : (s.modPort p f).record q = s.record q := by cases p <;> rfl
@[simp] theorem record_notify (s : State) (n : Notice) (q : RecordId) : (s.notify n).record q = s.record q := record_modPort ..

@[simp] theorem page_modBay (s : State) (b : BayId) (f : Bay → Bay) (q : PageId) : (s.modBay b f).page q = s.page q := rfl
@[simp] theorem page_setSession (s : State) (b : BayId) (r : Option RecordId) (q : PageId) : (s.setSession b r).page q = s.page q := rfl
@[simp] theorem page_addUnbilled (s : State) (b : BayId) (e : Nat) (q : PageId) : (s.addUnbilled b e).page q = s.page q := rfl
@[simp] theorem page_countValid (s : State) (b : BayId) (v : Bool) (q : PageId) : (s.countValid b v).page q = s.page q := rfl
@[simp] theorem page_hear (s : State) (b : BayId) (q : PageId) : (s.hear b).page q = s.page q := rfl
@[simp] theorem page_modRecord (s : State) (r : RecordId) (f : Record → Record) (q : PageId) : (s.modRecord r f).page q = s.page q := rfl
@[simp] theorem page_takeRecord (s : State) (r : RecordId) (g : Record) (q : PageId) : (s.takeRecord r g).page q = s.page q := rfl
@[simp] theorem page_freeRecordOf (s : State) (r : RecordId) (q : PageId) : (s.freeRecordOf r).page q = s.page q := rfl
@[simp] theorem page_setEndedLatch (s : State) (b : BayId) (v : Bool) (q : PageId) : (s.setEndedLatch b v).page q = s.page q := rfl
@[simp] theorem page_setNoContextMark (s : State) (b : BayId) (v : Bool) (q : PageId) : (s.setNoContextMark b v).page q = s.page q := rfl
@[simp] theorem page_setWaiting (s : State) (w : List RecordId) (q : PageId) : (s.setWaiting w).page q = s.page q := rfl
@[simp] theorem page_account (s : State) (r : RecordId) (e : Nat) (q : PageId) : (s.account r e).page q = s.page q := rfl
@[simp] theorem page_modPort (s : State) (p : Port) (f : PortContext → PortContext) (q : PageId) : (s.modPort p f).page q = s.page q := by cases p <;> rfl
@[simp] theorem page_notify (s : State) (n : Notice) (q : PageId) : (s.notify n).page q = s.page q := page_modPort ..

@[simp] theorem plan_modBay (s : State) (b : BayId) (f : Bay → Bay) (q : PlanId) : (s.modBay b f).plan q = s.plan q := rfl
@[simp] theorem plan_setSession (s : State) (b : BayId) (r : Option RecordId) (q : PlanId) : (s.setSession b r).plan q = s.plan q := rfl
@[simp] theorem plan_addUnbilled (s : State) (b : BayId) (e : Nat) (q : PlanId) : (s.addUnbilled b e).plan q = s.plan q := rfl
@[simp] theorem plan_countValid (s : State) (b : BayId) (v : Bool) (q : PlanId) : (s.countValid b v).plan q = s.plan q := rfl
@[simp] theorem plan_hear (s : State) (b : BayId) (q : PlanId) : (s.hear b).plan q = s.plan q := rfl
@[simp] theorem plan_modRecord (s : State) (r : RecordId) (f : Record → Record) (q : PlanId) : (s.modRecord r f).plan q = s.plan q := rfl
@[simp] theorem plan_takeRecord (s : State) (r : RecordId) (g : Record) (q : PlanId) : (s.takeRecord r g).plan q = s.plan q := rfl
@[simp] theorem plan_freeRecordOf (s : State) (r : RecordId) (q : PlanId) : (s.freeRecordOf r).plan q = s.plan q := rfl
@[simp] theorem plan_setEndedLatch (s : State) (b : BayId) (v : Bool) (q : PlanId) : (s.setEndedLatch b v).plan q = s.plan q := rfl
@[simp] theorem plan_setNoContextMark (s : State) (b : BayId) (v : Bool) (q : PlanId) : (s.setNoContextMark b v).plan q = s.plan q := rfl
@[simp] theorem plan_setWaiting (s : State) (w : List RecordId) (q : PlanId) : (s.setWaiting w).plan q = s.plan q := rfl
@[simp] theorem plan_account (s : State) (r : RecordId) (e : Nat) (q : PlanId) : (s.account r e).plan q = s.plan q := rfl
@[simp] theorem plan_modPort (s : State) (p : Port) (f : PortContext → PortContext) (q : PlanId) : (s.modPort p f).plan q = s.plan q := by cases p <;> rfl
@[simp] theorem plan_notify (s : State) (n : Notice) (q : PlanId) : (s.notify n).plan q = s.plan q := plan_modPort ..

@[simp] theorem node_modBay (s : State) (b : BayId) (f : Bay → Bay) (q : NodeId) : (s.modBay b f).node q = s.node q := rfl
@[simp] theorem node_setSession (s : State) (b : BayId) (r : Option RecordId) (q : NodeId) : (s.setSession b r).node q = s.node q := rfl
@[simp] theorem node_addUnbilled (s : State) (b : BayId) (e : Nat) (q : NodeId) : (s.addUnbilled b e).node q = s.node q := rfl
@[simp] theorem node_countValid (s : State) (b : BayId) (v : Bool) (q : NodeId) : (s.countValid b v).node q = s.node q := rfl
@[simp] theorem node_hear (s : State) (b : BayId) (q : NodeId) : (s.hear b).node q = s.node q := rfl
@[simp] theorem node_modRecord (s : State) (r : RecordId) (f : Record → Record) (q : NodeId) : (s.modRecord r f).node q = s.node q := rfl
@[simp] theorem node_takeRecord (s : State) (r : RecordId) (g : Record) (q : NodeId) : (s.takeRecord r g).node q = s.node q := rfl
@[simp] theorem node_freeRecordOf (s : State) (r : RecordId) (q : NodeId) : (s.freeRecordOf r).node q = s.node q := rfl
@[simp] theorem node_setEndedLatch (s : State) (b : BayId) (v : Bool) (q : NodeId) : (s.setEndedLatch b v).node q = s.node q := rfl
@[simp] theorem node_setNoContextMark (s : State) (b : BayId) (v : Bool) (q : NodeId) : (s.setNoContextMark b v).node q = s.node q := rfl
@[simp] theorem node_setWaiting (s : State) (w : List RecordId) (q : NodeId) : (s.setWaiting w).node q = s.node q := rfl
@[simp] theorem node_account (s : State) (r : RecordId) (e : Nat) (q : NodeId) : (s.account r e).node q = s.node q := rfl
@[simp] theorem node_modPage (s : State) (pg : PageId) (f : Page → Page) (q : NodeId) : (s.modPage pg f).node q = s.node q := rfl
@[simp] theorem node_setPlan (s : State) (p : PlanId) (e : Option PlanEntry) (q : NodeId) : (s.setPlan p e).node q = s.node q := rfl
@[simp] theorem node_setStaging (s : State) (st : Option Staging) (q : NodeId) : (s.setStaging st).node q = s.node q := rfl
@[simp] theorem node_addPin (s : State) (pg : PageId) (q : NodeId) : (s.addPin pg).node q = s.node q := rfl
@[simp] theorem node_releasePin (s : State) (pg : PageId) (q : NodeId) : (s.releasePin pg).node q = s.node q := rfl
@[simp] theorem node_modPort (s : State) (p : Port) (f : PortContext → PortContext) (q : NodeId) : (s.modPort p f).node q = s.node q := by cases p <;> rfl
@[simp] theorem node_notify (s : State) (n : Notice) (q : NodeId) : (s.notify n).node q = s.node q := node_modPort ..

@[simp] theorem settings_modBay (s : State) (b : BayId) (f : Bay → Bay) : (s.modBay b f).settings = s.settings := rfl
@[simp] theorem settings_setSession (s : State) (b : BayId) (r : Option RecordId) : (s.setSession b r).settings = s.settings := rfl
@[simp] theorem settings_addUnbilled (s : State) (b : BayId) (e : Nat) : (s.addUnbilled b e).settings = s.settings := rfl
@[simp] theorem settings_countValid (s : State) (b : BayId) (v : Bool) : (s.countValid b v).settings = s.settings := rfl
@[simp] theorem settings_hear (s : State) (b : BayId) : (s.hear b).settings = s.settings := rfl
@[simp] theorem settings_modRecord (s : State) (r : RecordId) (f : Record → Record) : (s.modRecord r f).settings = s.settings := rfl
@[simp] theorem settings_takeRecord (s : State) (r : RecordId) (g : Record) : (s.takeRecord r g).settings = s.settings := rfl
@[simp] theorem settings_freeRecordOf (s : State) (r : RecordId) : (s.freeRecordOf r).settings = s.settings := rfl
@[simp] theorem settings_setEndedLatch (s : State) (b : BayId) (v : Bool) : (s.setEndedLatch b v).settings = s.settings := rfl
@[simp] theorem settings_setNoContextMark (s : State) (b : BayId) (v : Bool) : (s.setNoContextMark b v).settings = s.settings := rfl
@[simp] theorem settings_setWaiting (s : State) (w : List RecordId) : (s.setWaiting w).settings = s.settings := rfl
@[simp] theorem settings_account (s : State) (r : RecordId) (e : Nat) : (s.account r e).settings = s.settings := rfl
@[simp] theorem settings_modPage (s : State) (pg : PageId) (f : Page → Page) : (s.modPage pg f).settings = s.settings := rfl
@[simp] theorem settings_setPlan (s : State) (p : PlanId) (e : Option PlanEntry) : (s.setPlan p e).settings = s.settings := rfl
@[simp] theorem settings_setStaging (s : State) (st : Option Staging) : (s.setStaging st).settings = s.settings := rfl
@[simp] theorem settings_addPin (s : State) (pg : PageId) : (s.addPin pg).settings = s.settings := rfl
@[simp] theorem settings_releasePin (s : State) (pg : PageId) : (s.releasePin pg).settings = s.settings := rfl
@[simp] theorem settings_modPort (s : State) (p : Port) (f : PortContext → PortContext) : (s.modPort p f).settings = s.settings := by cases p <;> rfl
@[simp] theorem settings_notify (s : State) (n : Notice) : (s.notify n).settings = s.settings := settings_modPort ..

@[simp] theorem now_modBay (s : State) (b : BayId) (f : Bay → Bay) : (s.modBay b f).now = s.now := rfl
@[simp] theorem now_setSession (s : State) (b : BayId) (r : Option RecordId) : (s.setSession b r).now = s.now := rfl
@[simp] theorem now_addUnbilled (s : State) (b : BayId) (e : Nat) : (s.addUnbilled b e).now = s.now := rfl
@[simp] theorem now_countValid (s : State) (b : BayId) (v : Bool) : (s.countValid b v).now = s.now := rfl
@[simp] theorem now_hear (s : State) (b : BayId) : (s.hear b).now = s.now := rfl
@[simp] theorem now_modRecord (s : State) (r : RecordId) (f : Record → Record) : (s.modRecord r f).now = s.now := rfl
@[simp] theorem now_takeRecord (s : State) (r : RecordId) (g : Record) : (s.takeRecord r g).now = s.now := rfl
@[simp] theorem now_freeRecordOf (s : State) (r : RecordId) : (s.freeRecordOf r).now = s.now := rfl
@[simp] theorem now_setEndedLatch (s : State) (b : BayId) (v : Bool) : (s.setEndedLatch b v).now = s.now := rfl
@[simp] theorem now_setNoContextMark (s : State) (b : BayId) (v : Bool) : (s.setNoContextMark b v).now = s.now := rfl
@[simp] theorem now_setWaiting (s : State) (w : List RecordId) : (s.setWaiting w).now = s.now := rfl
@[simp] theorem now_account (s : State) (r : RecordId) (e : Nat) : (s.account r e).now = s.now := rfl
@[simp] theorem now_modPage (s : State) (pg : PageId) (f : Page → Page) : (s.modPage pg f).now = s.now := rfl
@[simp] theorem now_setPlan (s : State) (p : PlanId) (e : Option PlanEntry) : (s.setPlan p e).now = s.now := rfl
@[simp] theorem now_setStaging (s : State) (st : Option Staging) : (s.setStaging st).now = s.now := rfl
@[simp] theorem now_addPin (s : State) (pg : PageId) : (s.addPin pg).now = s.now := rfl
@[simp] theorem now_releasePin (s : State) (pg : PageId) : (s.releasePin pg).now = s.now := rfl
@[simp] theorem now_modPort (s : State) (p : Port) (f : PortContext → PortContext) : (s.modPort p f).now = s.now := by cases p <;> rfl
@[simp] theorem now_notify (s : State) (n : Notice) : (s.notify n).now = s.now := now_modPort ..

@[simp] theorem scheduled_modBay (s : State) (b : BayId) (f : Bay → Bay) (c : BayId) : (s.modBay b f).scheduled c = s.scheduled c := rfl
@[simp] theorem scheduled_setSession (s : State) (b : BayId) (r : Option RecordId) (c : BayId) : (s.setSession b r).scheduled c = s.scheduled c := rfl
@[simp] theorem scheduled_addUnbilled (s : State) (b : BayId) (e : Nat) (c : BayId) : (s.addUnbilled b e).scheduled c = s.scheduled c := rfl
@[simp] theorem scheduled_countValid (s : State) (b : BayId) (v : Bool) (c : BayId) : (s.countValid b v).scheduled c = s.scheduled c := rfl
@[simp] theorem scheduled_hear (s : State) (b : BayId) (c : BayId) : (s.hear b).scheduled c = s.scheduled c := rfl
@[simp] theorem scheduled_modRecord (s : State) (r : RecordId) (f : Record → Record) (c : BayId) : (s.modRecord r f).scheduled c = s.scheduled c := rfl
@[simp] theorem scheduled_takeRecord (s : State) (r : RecordId) (g : Record) (c : BayId) : (s.takeRecord r g).scheduled c = s.scheduled c := rfl
@[simp] theorem scheduled_freeRecordOf (s : State) (r : RecordId) (c : BayId) : (s.freeRecordOf r).scheduled c = s.scheduled c := rfl
@[simp] theorem scheduled_setEndedLatch (s : State) (b : BayId) (v : Bool) (c : BayId) : (s.setEndedLatch b v).scheduled c = s.scheduled c := rfl
@[simp] theorem scheduled_setNoContextMark (s : State) (b : BayId) (v : Bool) (c : BayId) : (s.setNoContextMark b v).scheduled c = s.scheduled c := rfl
@[simp] theorem scheduled_setWaiting (s : State) (w : List RecordId) (c : BayId) : (s.setWaiting w).scheduled c = s.scheduled c := rfl
@[simp] theorem scheduled_account (s : State) (r : RecordId) (e : Nat) (c : BayId) : (s.account r e).scheduled c = s.scheduled c := rfl
@[simp] theorem scheduled_modPage (s : State) (pg : PageId) (f : Page → Page) (c : BayId) : (s.modPage pg f).scheduled c = s.scheduled c := rfl
@[simp] theorem scheduled_setPlan (s : State) (p : PlanId) (e : Option PlanEntry) (c : BayId) : (s.setPlan p e).scheduled c = s.scheduled c := rfl
@[simp] theorem scheduled_setStaging (s : State) (st : Option Staging) (c : BayId) : (s.setStaging st).scheduled c = s.scheduled c := rfl
@[simp] theorem scheduled_addPin (s : State) (pg : PageId) (c : BayId) : (s.addPin pg).scheduled c = s.scheduled c := rfl
@[simp] theorem scheduled_releasePin (s : State) (pg : PageId) (c : BayId) : (s.releasePin pg).scheduled c = s.scheduled c := rfl
@[simp] theorem scheduled_modPort (s : State) (p : Port) (f : PortContext → PortContext) (c : BayId) : (s.modPort p f).scheduled c = s.scheduled c := by cases p <;> rfl
@[simp] theorem scheduled_notify (s : State) (n : Notice) (c : BayId) : (s.notify n).scheduled c = s.scheduled c := scheduled_modPort ..

@[simp] theorem record_setEndedLatch (s : State) (b : BayId) (v : Bool) (q : RecordId) : (s.setEndedLatch b v).record q = s.record q := rfl
@[simp] theorem record_setNoContextMark (s : State) (b : BayId) (v : Bool) (q : RecordId) : (s.setNoContextMark b v).record q = s.record q := rfl
@[simp] theorem record_setWaiting (s : State) (w : List RecordId) (q : RecordId) : (s.setWaiting w).record q = s.record q := rfl

end Sys2Proof.Machine
end

