-- ==== Sys2Proof/Laws/Ports.lean ====
section
/-! SUPPORT. What each operation of the Message Ports does to a port context, and that each keeps the bounds of its
queues. -/

namespace Sys2Proof.Machine

namespace PortContext

/-! ## What each operation does -/

@[simp] theorem append_receiveQueue (m : Message) (c : PortContext) : (c.append m).receiveQueue = c.receiveQueue := by
  unfold append; split <;> rfl

@[simp] theorem append_service (m : Message) (c : PortContext) : (c.append m).service = c.service := by
  unfold append; split <;> rfl

@[simp] theorem append_receiver (m : Message) (c : PortContext) : (c.append m).receiver = c.receiver := by
  unfold append; split <;> rfl

@[simp] theorem append_length (m : Message) (c : PortContext) :
    (c.append m).transmitQueue.length = c.transmitQueue.length + 1 := by
  unfold append; split <;> simp_all

/-- A message appended stands last, its body and head as they were handed over. -/
theorem append_getLast (m : Message) (c : PortContext) :
    ∃ f, (c.append m).transmitQueue.getLast? = some { m with droppedFlag := f } := by
  unfold append; split
  · exact ⟨c.dropMark, rfl⟩
  · exact ⟨m.droppedFlag, by simp⟩

@[simp] theorem handNotice_receiveQueue (m : Message) (c : PortContext) :
    (c.handNotice m).receiveQueue = c.receiveQueue := by
  unfold handNotice drop; split <;> simp

@[simp] theorem handNotice_service (m : Message) (c : PortContext) : (c.handNotice m).service = c.service := by
  unfold handNotice drop; split <;> simp

theorem handNotice_length (m : Message) (c : PortContext) :
    (c.handNotice m).transmitQueue.length =
      if c.transmitQueue.length < 12 then c.transmitQueue.length + 1 else c.transmitQueue.length := by
  unfold handNotice drop; split <;> simp

@[simp] theorem handBusy_receiveQueue (m : Message) (c : PortContext) :
    (c.handBusy m).receiveQueue = c.receiveQueue := by
  unfold handBusy drop; split <;> simp

@[simp] theorem handBusy_service (m : Message) (c : PortContext) : (c.handBusy m).service = c.service := by
  unfold handBusy drop; split <;> simp

theorem handBusy_length (m : Message) (c : PortContext) :
    (c.handBusy m).transmitQueue.length =
      if c.transmitQueue.length < 14 then c.transmitQueue.length + 1 else c.transmitQueue.length := by
  unfold handBusy drop; split <;> simp

/-- An answer to the oldest request: its reply stands last, the request has left and the next has yet to be checked. -/
theorem answer_cons (code : ResultCode) (contents : Contents) (c : PortContext) (q : Request) (rest : List Request)
    (h : c.receiveQueue = q :: rest) :
    c.answer code contents =
      { c.append (c.replyMessage q code (rest.length + 1) contents) with
        receiveQueue := rest, service := .unchecked } := by
  unfold answer; rw [h]; rfl

/-! ## Bounds -/

theorem fresh_sound : fresh.Sound := by simp [Sound, fresh]

theorem handNotice_sound {c : PortContext} (h : c.Sound) (m : Message) : (c.handNotice m).Sound := by
  obtain ⟨h1, h2, h3⟩ := h
  refine ⟨by simpa using h1, ?_, fun hs => ?_⟩
  · rw [handNotice_length]; split <;> omega
  · have := h3 (by simpa using hs)
    refine ⟨by simpa using this.1, ?_⟩
    rw [handNotice_length]; split <;> omega

theorem handBusy_sound {c : PortContext} (h : c.Sound) (m : Message) : (c.handBusy m).Sound := by
  obtain ⟨h1, h2, h3⟩ := h
  refine ⟨by simpa using h1, ?_, fun hs => ?_⟩
  · rw [handBusy_length]; split <;> omega
  · have := h3 (by simpa using hs)
    refine ⟨by simpa using this.1, ?_⟩
    rw [handBusy_length]; split <;> omega

/-- An answer finds room when fewer than 16 messages stand in the transmit queue. -/
theorem answer_sound {c : PortContext} (h : c.Sound) (hr : c.transmitQueue.length < 16) (code : ResultCode)
    (contents : Contents) : (c.answer code contents).Sound := by
  obtain ⟨h1, h2, h3⟩ := h
  unfold answer
  split
  · exact ⟨h1, h2, h3⟩
  · rename_i q rest hq
    rw [hq] at h1
    refine ⟨by simpa using Nat.le_of_succ_le h1, ?_, by simp⟩
    simpa using hr

/-- An answer to a request that stands at its owning block always finds room (R184). -/
theorem answer_sound_of_service {c : PortContext} (h : c.Sound) (hs : c.service ≠ .unchecked) (code : ResultCode)
    (contents : Contents) : (c.answer code contents).Sound :=
  answer_sound h (by have := (h.2.2 hs).2; omega) code contents

theorem countError_sound {c : PortContext} (h : c.Sound) : c.countError.Sound := h

theorem accept_sound {c : PortContext} (h : c.Sound) (q : Request) : (c.accept q).Sound := by
  unfold accept
  split
  · obtain ⟨h1, h2, h3⟩ := h
    refine ⟨by simp; omega, h2, fun hs => ⟨by simp, (h3 hs).2⟩⟩
  · exact handBusy_sound h _

theorem receive_sound {c : PortContext} (h : c.Sound) (x : Reception) : (c.receive x).Sound := by
  unfold receive
  split
  · exact countError_sound h
  · split
    · exact accept_sound h _
    · exact countError_sound h

theorem take_sound {c : PortContext} (h : c.Sound) (bytes : List Byte) : (c.take bytes).Sound := by
  unfold take
  dsimp only
  generalize (examine c.receiver bytes).1 = l
  have h0 : ({ c with receiver := (examine c.receiver bytes).2 } : PortContext).Sound := h
  generalize ({ c with receiver := (examine c.receiver bytes).2 } : PortContext) = d at h0
  induction l generalizing d with
  | nil => exact h0
  | cons x l ih => exact ih _ (receive_sound h0 x)

theorem timeOut_sound {c : PortContext} (h : c.Sound) : c.timeOut.Sound := by
  unfold timeOut; split <;> exact h

theorem startService_sound {c : PortContext} (h : c.Sound) (ceiling : Nat) : (c.startService ceiling).Sound := by
  unfold startService
  split
  · split
    · exact h
    · rename_i q rest _ hq hlt
      split
      · exact answer_sound h (by omega) _ _
      · rename_i level hc
        refine ⟨h.1, h.2.1, fun _ => ⟨by simp [hq], ?_⟩⟩
        unfold check at hc
        split at hc
        · cases hc
        · show c.transmitQueue.length ≤ 14
          omega
  · exact h

theorem completeSending_sound {c : PortContext} (h : c.Sound) : c.completeSending.Sound := by
  obtain ⟨h1, h2, h3⟩ := h
  unfold completeSending
  split
  · exact ⟨h1, h2, h3⟩
  · rename_i m rest hq
    rw [hq] at h2 h3
    simp only [List.length_cons] at h2 h3
    unfold beginSending
    split
    · exact ⟨h1, by simp; omega, fun hs => ⟨(h3 hs).1, by have := (h3 hs).2; simp; omega⟩⟩
    · rename_i n more hm
      simp only at hm
      subst hm
      simp only [List.length_cons] at h2 h3
      exact ⟨h1, by simp; omega, fun hs => ⟨(h3 hs).1, by have := (h3 hs).2; simp; omega⟩⟩

end PortContext

/-! ## The ports of a state -/

theorem portsSound_iff (s : State) : s.PortsSound ↔ ∀ p, (s.port p).Sound :=
  ⟨fun h p => by cases p; exacts [h.1, h.2], fun h => ⟨h .a, h .b⟩⟩

/-- A change of one port that keeps its bounds. -/
theorem portsSound_modPort {s : State} (h : s.PortsSound) (p : Port) (f : PortContext → PortContext)
    (hf : (s.port p).Sound → (f (s.port p)).Sound) : (s.modPort p f).PortsSound := by
  cases p
  · exact ⟨hf h.1, h.2⟩
  · exact ⟨h.1, hf h.2⟩

theorem portsSound_notify {s : State} (h : s.PortsSound) (n : Notice) : (s.notify n).PortsSound :=
  portsSound_modPort h _ _ fun k => PortContext.handNotice_sound k _

/-! ## The service of a request -/

/-- A request that is taken stands at its owning block as the oldest of its port. -/
theorem takenLevel_some {p : Port} {c : Instr} {s : State} {e : Nat} (h : s.takenLevel p c = some e) :
    (s.port p).service = .handed e ∧
      ∃ q rest, (s.port p).receiveQueue = q :: rest ∧ requestOf p q.kind q.body = some c := by
  unfold State.takenLevel at h
  split at h
  · rename_i level q rest hs hq
    split at h
    · rename_i hr
      cases h
      exact ⟨hs, q, rest, hq, hr⟩
    · cases h
  · cases h

/-- Everything that the service of a request can do. -/
theorem serve_cases (p : Port) (c : Instr) (s : State) (block : Nat → Answer) :
    (∃ e, s.takenLevel p c = some e ∧ serve p c s block = .next ((block e).send p)) ∨
      (s.takenLevel p c = none ∧ serve p c s block = .next s) := by
  unfold serve
  cases h : s.takenLevel p c with
  | none => exact .inr ⟨rfl, rfl⟩
  | some e => exact .inl ⟨e, rfl, rfl⟩

theorem serve_taken {p : Port} {c : Instr} {s : State} {e : Nat} (h : s.takenLevel p c = some e)
    (block : Nat → Answer) : serve p c s block = .next ((block e).send p) := by
  unfold serve; rw [h]

theorem serve_idle {p : Port} {c : Instr} {s : State} (h : s.takenLevel p c = none) (block : Nat → Answer) :
    serve p c s block = .next s := by
  unfold serve; rw [h]

end Sys2Proof.Machine
end

