-- ==== Sys2Proof/Laws/Sessions.lean ====
section
/-! SUPPORT. What an event of the Session Manager can do, said once: it is a run of small moves, each on a record, the
manager's own marks, four fields of a bay, a page, the receipt queue or a notice. What every move keeps, every event
keeps. -/

namespace Sys2Proof.Machine

/-- A run of the small moves that make up an event of the Session Manager. -/
inductive SessionMoves : State → State → Prop where
  | refl (s : State) : SessionMoves s s
  | trans {s t u : State} : SessionMoves s t → SessionMoves t u → SessionMoves s u
  /-- One record changes, and balances if every record did. -/
  | record (s : State) (r : RecordId) (f : Record → Record) (h : s.EnergySound → (f (s.record r)).Balanced) :
    SessionMoves s (s.modRecord r f)
  /-- The manager's pointer, counter, queue and marks change. -/
  | marks (s : State) (m : Sessions) (h : m.records = s.ssm.records) : SessionMoves s { s with ssm := m }
  /-- A bay's session record id, reserved-for id, foreign-vehicle mark or unbilled Wh change. -/
  | bay (s : State) (b : BayId) (f : Bay → Bay)
    (h : ∀ e : Bay, f e =
      { e with
        session := (f e).session
        reservedFor := (f e).reservedFor
        foreignMark := (f e).foreignMark
        unbilledWh := (f e).unbilledWh }) : SessionMoves s (s.modBay b f)
  | page (s : State) (pg : PageId) (f : Page → Page) : SessionMoves s (s.modPage pg f)
  | notice (s : State) (n : Notice) : SessionMoves s (s.notify n)
  /-- A receipt joins the queue, which had room, and takes a number. -/
  | receipt (s : State) (r : Receipt) (h : s.rcq.entries.length < 8) :
    SessionMoves s { s with rcq := ⟨s.rcq.entries ++ [r], nextNumberAfter s.rcq.nextNumber⟩ }

/-- What an event of the Session Manager leaves unchanged. -/
structure SessionFrame (s t : State) : Prop where
  clc : t.clc = s.clc
  ale : t.ale = s.ale
  ivm : t.ivm = s.ivm
  sst : t.sst = s.sst
  lines : t.lines = s.lines
  pending : t.pending = s.pending
  plans : t.tfs.plans = s.tfs.plans
  staging : t.tfs.staging = s.tfs.staging
  blc : t.blc = { s.blc with bays := t.blc.bays }
  bays : ∀ b : BayId, t.bay b =
    { s.bay b with
      session := (t.bay b).session
      reservedFor := (t.bay b).reservedFor
      foreignMark := (t.bay b).foreignMark
      unbilledWh := (t.bay b).unbilledWh }

namespace SessionFrame

theorem refl (s : State) : SessionFrame s s := by constructor <;> intros <;> rfl

theorem trans {s t u : State} (h : SessionFrame s t) (k : SessionFrame t u) : SessionFrame s u where
  clc := k.clc.trans h.clc
  ale := k.ale.trans h.ale
  ivm := k.ivm.trans h.ivm
  sst := k.sst.trans h.sst
  lines := k.lines.trans h.lines
  pending := k.pending.trans h.pending
  plans := k.plans.trans h.plans
  staging := k.staging.trans h.staging
  blc := by rw [k.blc, h.blc]
  bays b := by rw [k.bays b, h.bays b]

/-- The link state of every bay stands. -/
theorem link {s t : State} (h : SessionFrame s t) (b : BayId) : (t.bay b).link = (s.bay b).link := by rw [h.bays b]

/-- Whether a bay is scheduled stands. -/
theorem scheduled {s t : State} (h : SessionFrame s t) (b : BayId) : t.scheduled b = s.scheduled b := by
  unfold State.scheduled State.activeMasks; rw [h.blc]

end SessionFrame

namespace SessionMoves

/-! ## What every run of moves keeps -/

/-- A run of moves keeps everything that `SessionFrame` names. -/
theorem frame {s t : State} (h : SessionMoves s t) : SessionFrame s t := by
  induction h with
  | refl s => exact .refl s
  | trans _ _ h k => exact h.trans k
  | record => constructor <;> intros <;> rfl
  | marks => constructor <;> intros <;> rfl
  | bay s b f h =>
    constructor <;> intros <;> try rfl
    rename_i c
    by_cases hc : c = b
    · subst hc; simpa using h (s.bay c)
    · simp [bay_modBay, hc]
  | page => constructor <;> intros <;> rfl
  | notice s n =>
    unfold State.notify
    cases n.port s.settings <;> constructor <;> intros <;> rfl
  | receipt => constructor <;> intros <;> rfl

/-- A run of moves keeps every record balanced. -/
theorem energy {s t : State} (h : SessionMoves s t) : s.EnergySound → t.EnergySound := by
  induction h with
  | refl s => exact id
  | trans _ _ h k => exact k ∘ h
  | record s r f h =>
    refine fun e => ⟨fun q => ?_, e.2⟩
    rw [record_modRecord]; split
    · exact h e
    · exact e.1 q
  | marks s m h =>
    refine fun e => ⟨fun q => ?_, e.2⟩
    have := e.1 q
    unfold State.record at this ⊢
    simpa [h] using this
  | bay => exact id
  | page => exact id
  | notice s n => exact fun e => ⟨fun q => by simpa using e.1 q, by simpa using e.2⟩
  | receipt => exact id

/-- A run of moves keeps the receipt queue and its numbers in bounds. -/
theorem records {s t : State} (h : SessionMoves s t) : s.RecordsSound → t.RecordsSound := by
  induction h with
  | refl s => exact id
  | trans _ _ h k => exact k ∘ h
  | record => exact id
  | marks => exact id
  | bay => exact id
  | page => exact id
  | notice s n => simp [State.RecordsSound]
  | receipt s r h =>
    rintro ⟨-, hn, hp⟩
    refine ⟨by simpa using h, ?_, hp⟩
    show nextNumberAfter s.rcq.nextNumber ≠ 0
    unfold nextNumberAfter; split
    · decide
    · rename_i hne
      intro hz; apply hne
      have : s.rcq.nextNumber = 0 - 1 := by rw [← hz]; simp
      simpa using this

/-- A run of moves keeps whatever handing over a notice keeps of the ports. -/
theorem ports {q : Ports → Prop} (hq : ∀ (s : State) (n : Notice), q s.mpt → q (s.notify n).mpt) {s t : State}
    (h : SessionMoves s t) : q s.mpt → q t.mpt := by
  induction h with
  | refl s => exact id
  | trans _ _ h k => exact k ∘ h
  | record => exact id
  | marks => exact id
  | bay => exact id
  | page => exact id
  | notice s n => exact hq s n
  | receipt => exact id

/-! ## The moves of each operation -/

theorem cleared_balanced : Record.cleared.Balanced := rfl

/-- A change of a record that leaves its segments and its metered Wh alone. -/
theorem keepRecord (s : State) (r : RecordId) (f : Record → Record)
    (h : ∀ g : Record, (f g).segments = g.segments ∧ (f g).metered = g.metered) : SessionMoves s (s.modRecord r f) := by
  refine record s r f fun e => ?_
  have := e.1 r
  unfold Record.Balanced at this ⊢
  rw [(h _).1, (h _).2]; exact this

/-- A record filled with one that balances. -/
theorem fillRecord (s : State) (r : RecordId) (g : Record) (h : g.Balanced) :
    SessionMoves s (s.modRecord r fun _ => g) := record s r _ fun _ => h

theorem takeRecord (s : State) (r : RecordId) (g : Record) (h : g.Balanced) : SessionMoves s (s.takeRecord r g) :=
  (fillRecord s r g h).trans (marks _ _ rfl)

theorem freeRecordOf (s : State) (r : RecordId) : SessionMoves s (s.freeRecordOf r) :=
  fillRecord s r _ cleared_balanced

theorem setEndedLatch (s : State) (b : BayId) (v : Bool) : SessionMoves s (s.setEndedLatch b v) := marks _ _ rfl

theorem setNoContextMark (s : State) (b : BayId) (v : Bool) : SessionMoves s (s.setNoContextMark b v) := marks _ _ rfl

theorem setWaiting (s : State) (w : List RecordId) : SessionMoves s (s.setWaiting w) := marks _ _ rfl

theorem addPinOf (s : State) (pg : Option PageId) : SessionMoves s (s.addPinOf pg) := by
  cases pg with
  | none => exact refl s
  | some pg => exact page s pg fun g => { g with pins := g.pins + 1 }

theorem setSession (s : State) (b : BayId) (r : Option RecordId) : SessionMoves s (s.setSession b r) :=
  bay s b _ fun _ => rfl

theorem addUnbilled (s : State) (b : BayId) (e : Nat) : SessionMoves s (s.addUnbilled b e) := bay s b _ fun _ => rfl

/-- A run of events over a list. -/
theorem foldl {α : Type} (f : State → α → State) (hf : ∀ t a, SessionMoves t (f t a)) (l : List α) (s : State) :
    SessionMoves s (l.foldl f s) := by
  induction l generalizing s with
  | nil => exact refl s
  | cons a l ih => exact (hf s a).trans (ih _)

theorem setMembers (s : State) (st : RecordState) (l : List RecordId) : SessionMoves s (s.setMembers st l) :=
  foldl _ (fun t r => keepRecord t r (fun g => { g with state := st }) fun _ => ⟨rfl, rfl⟩) l s

theorem issueReceipt (s : State) (head : RecordId) (h : s.receiptRoom = true) :
    SessionMoves s (s.issueReceipt head) :=
  ((receipt s _ (by simpa [State.receiptRoom] using h)).trans (setMembers _ _ _)).trans (notice _ _)

theorem placeChain (s : State) (head : RecordId) : SessionMoves s (s.placeChain head) := by
  unfold State.placeChain; split
  · rename_i h; exact issueReceipt s head h.2
  · exact setWaiting s _

theorem releaseReservation (s : State) (head : RecordId) : SessionMoves s (s.releaseReservation head) := by
  unfold State.releaseReservation
  refine trans ?_ (keepRecord _ _ _ fun _ => ⟨rfl, rfl⟩)
  split
  · exact bay s _ _ fun _ => rfl
  · exact refl s

theorem endChain (s : State) (head : RecordId) (reason : EndReason) (latch : Bool) :
    SessionMoves s (s.endChain head reason latch) := by
  unfold State.endChain
  refine trans ?_ (placeChain _ _)
  refine trans ?_ (setMembers _ _ _)
  refine trans ?_ (notice _ _)
  have h : SessionMoves s (if (s.record head).state = .transferring then s.releaseReservation head else s) := by
    split
    · exact releaseReservation s head
    · exact refl s
  have k := (h.trans (keepRecord _ head (fun g =>
    { g with endTime := s.now, endReason := some reason, resumeDeadline := none, suspension := none })
      fun _ => ⟨rfl, rfl⟩)).trans
      (setSession _ (s.record head).bay none)
  cases latch
  · exact k
  · exact k.trans (setEndedLatch _ _ _)

theorem closeChain (s : State) (head : RecordId) (reason : EndReason) (plugged : Bool) :
    SessionMoves s (s.closeChain head reason plugged) := endChain ..

theorem closeByTable (s : State) (head : RecordId) (reason : EndReason) :
    SessionMoves s (s.closeByTable head reason) := endChain ..

theorem checkCaps (s : State) (head : RecordId) (plugged : Bool) : SessionMoves s (s.checkCaps head plugged) := by
  unfold State.checkCaps; split
  · exact closeChain ..
  · exact refl s

theorem openRoot (s : State) (r : RecordId) (g : Record) (h : g.Balanced) : SessionMoves s (s.openRoot r g) :=
  ((((marks s { s.ssm with startCounter := nextStart s.ssm.startCounter } rfl).trans
    (fillRecord _ r { g with startSeq := some (nextStart s.ssm.startCounter), startTime := s.now } h)).trans
      (addPinOf _ _)).trans (setSession _ _ _)).trans (notice _ _)

theorem withdraw (s : State) (r : RecordId) (c : WithdrawCause) : SessionMoves s (s.withdraw r c) :=
  ((freeRecordOf s r).trans (setSession _ _ _)).trans (notice _ _)

theorem suspend (s : State) (r : RecordId) (x : SuspensionReason) : SessionMoves s (s.suspend r x) :=
  (keepRecord s r (fun g =>
    { g with
      state := .suspended
      suspension := some x
      resumeDeadline := s.deadline (1000 * s.settings.resumeWindow)
      charge := .waiting }) fun _ => ⟨rfl, rfl⟩).trans (notice _ _)

theorem resume (s : State) (r : RecordId) : SessionMoves s (s.resume r) :=
  (keepRecord s r (fun g => { g with state := .active, resumeDeadline := none, suspension := none })
    fun _ => ⟨rfl, rfl⟩).trans (notice _ _)

theorem beginTransfer (s : State) (r : RecordId) (t : BayId) : SessionMoves s (s.beginTransfer r t) :=
  ((keepRecord s r (fun g =>
    { g with
      state := .transferring
      transferTarget := some t
      transferDeadline := s.deadline (1000 * s.settings.transferTimeout)
      resumeDeadline := none
      suspension := none
      charge := .waiting }) fun _ => ⟨rfl, rfl⟩).trans
    (bay _ t (fun e => { e with reservedFor := some r, foreignMark := false }) fun _ => rfl)).trans (notice _ _)

theorem link (s : State) (old new : RecordId) (g : Record) (h : g.Balanced) : SessionMoves s (s.link old new g) :=
  ((takeRecord s new g h).trans (addPinOf _ _)).trans (keepRecord _ old (fun h =>
    { h with
      state := .linked
      transferDeadline := none
      transferTarget := none
      resumeDeadline := none
      suspension := none }) fun _ => ⟨rfl, rfl⟩)

theorem arrive (s : State) (old new : RecordId) (b : BayId) : SessionMoves s (s.arrive old new b) :=
  (((((link s old new _ (by rfl)).trans (setSession _ _ _)).trans (bay _ b (fun e =>
    { e with reservedFor := none, session := some new, foreignMark := false }) fun _ => rfl)).trans
    (setEndedLatch _ _ _)).trans (setNoContextMark _ _ _)).trans (notice _ _)

theorem arrival (s : State) (head : RecordId) (b : BayId) : SessionMoves s (s.arrival head b) := by
  unfold State.arrival; split
  · exact arrive ..
  · exact (closeByTable ..).trans (setEndedLatch ..)

theorem reservedReport (s : State) (head : RecordId) (b : BayId) (x : Report) :
    SessionMoves s (s.reservedReport head b x) := by
  unfold State.reservedReport; split
  · exact arrival ..
  · split
    · exact (bay s b _ fun _ => rfl).trans (notice _ _)
    · exact refl s

/-- A delta adds as much to the segments as its shares take of it (R135, R138). -/
theorem segmentsTotal_addDelta (e : Nat) (x : Shares) (t : Triple) (now : Option SiteTime) (l : List Segment) :
    segmentsTotal (addDelta e x t now l) = segmentsTotal l + e * (x.solar + x.battery + x.grid) := by
  induction l with
  | nil => simp [addDelta, segmentsTotal, Segment.opened, Segment.total]; ring
  | cons g rest ih =>
    unfold addDelta
    split
    · simp [segmentsTotal, Segment.add, Segment.total]; ring
    · simp only [segmentsTotal, List.map_cons, List.sum_cons] at ih ⊢
      omega

theorem sharesFor_whole {s : State} (h : s.EnergySound) (c : Fin 3) : (s.sharesFor c).Whole := by
  unfold State.sharesFor
  split
  · rfl
  · rename_i g hg
    split
    · exact (h.2 g hg).2
    · exact (h.2 g hg).1

theorem account (s : State) (r : RecordId) (e : Nat) : SessionMoves s (s.account r e) := by
  unfold State.account
  refine record s r _ fun h => ?_
  have hb := h.1 r
  have hw := sharesFor_whole h (s.record r).cls
  unfold Record.Balanced at hb ⊢
  unfold Shares.Whole at hw
  simp only [segmentsTotal_addDelta, hw, hb]
  ring

theorem accountAndCheck (s : State) (r : RecordId) (e : Nat) : SessionMoves s (s.accountAndCheck r e) :=
  (account s r e).trans (checkCaps ..)

theorem rollover (s : State) (old new : RecordId) (e : Nat) (c : Word32) :
    SessionMoves s (s.rollover old new e c) :=
  (((link s old new _ (by rfl)).trans (setSession _ _ _)).trans (accountAndCheck ..)).trans (notice _ _)

theorem splitLimit (s : State) (old : RecordId) (e : Nat) (c : Word32) : SessionMoves s (s.splitLimit old e c) := by
  unfold State.splitLimit
  refine trans (endChain s old .splitLimit false) ?_
  dsimp only
  split
  · exact ((takeRecord _ _ _ (by rfl)).trans (openRoot _ _ _ (by rfl))).trans (accountAndCheck ..)
  · exact (setEndedLatch _ _ _).trans (addUnbilled ..)

theorem ninthTriple (s : State) (r : RecordId) (e : Nat) (c : Word32) : SessionMoves s (s.ninthTriple r e c) := by
  unfold State.ninthTriple
  dsimp only
  split
  · split
    · exact rollover ..
    · exact (closeChain ..).trans (addUnbilled ..)
  · exact splitLimit ..

theorem meterEvent (s : State) (r : RecordId) (e : Nat) (c : Word32) : SessionMoves s (s.meterEvent r e c) := by
  unfold State.meterEvent
  refine trans (keepRecord s r (fun g => { g with meterLast := some c }) fun _ => ⟨rfl, rfl⟩) ?_
  dsimp only
  split
  · exact refl _
  · split
    · exact accountAndCheck ..
    · exact ninthTriple ..

theorem idleStep (s : State) (b : BayId) (x y : Report) (t : Option SiteTime) :
    SessionMoves s (s.idleStep b x y t) := by
  unfold State.idleStep
  split
  · exact refl s
  · split
    · split
      · rename_i r _ _ _ ms _
        exact (keepRecord s r (fun g => { g with idleMs := min 4294967295 (g.idleMs + ms) })
          fun _ => ⟨rfl, rfl⟩).trans (checkCaps ..)
      · exact refl s
    · exact refl s

theorem requestReport (s : State) (b : BayId) (x : Report) : SessionMoves s (s.requestReport b x) := by
  unfold State.requestReport
  split
  · exact refl s
  · split
    · split
      · exact ((takeRecord s _ _ (by rfl)).trans (setSession ..)).trans (notice ..)
      · unfold State.sayNoContext; split
        · exact refl s
        · exact (notice ..).trans (setNoContextMark ..)
    · exact refl s

theorem pendingReport (s : State) (r : RecordId) (x : Report) : SessionMoves s (s.pendingReport r x) := by
  unfold State.pendingReport; split
  · exact withdraw ..
  · exact withdraw ..
  · exact refl s
  · exact refl s

theorem activeReport (s : State) (r : RecordId) (x : Report) : SessionMoves s (s.activeReport r x) := by
  unfold State.activeReport; split
  · exact closeChain ..
  · exact suspend ..
  · exact refl s
  · exact refl s

theorem suspendedReport (s : State) (r : RecordId) (x : Report) : SessionMoves s (s.suspendedReport r x) := by
  unfold State.suspendedReport; split
  · exact closeChain ..
  · exact refl s
  · split
    · exact resume ..
    · exact closeChain ..
  · split
    · exact resume ..
    · exact closeChain ..

theorem situationStep (s : State) (b : BayId) (x : Report) : SessionMoves s (s.situationStep b x) := by
  unfold State.situationStep; split
  · exact reservedReport ..
  · exact requestReport ..
  · split
    · exact pendingReport ..
    · exact activeReport ..
    · exact suspendedReport ..
    · exact refl s
    · exact requestReport ..
    · exact requestReport ..
    · exact requestReport ..
    · exact requestReport ..

theorem clearMarks (s : State) (b : BayId) (x : Report) : SessionMoves s (s.clearMarks b x) := by
  unfold State.clearMarks; split
  · exact ((setEndedLatch ..).trans (setNoContextMark ..)).trans (bay _ _ _ fun _ => rfl)
  · exact refl s

theorem statusEvent (s : State) (b : BayId) (x y : Report) (t : Option SiteTime) :
    SessionMoves s (s.statusEvent b x y t) :=
  ((idleStep ..).trans (situationStep ..)).trans (clearMarks ..)

theorem lossEvent (s : State) (b : BayId) (x : SuspensionReason) : SessionMoves s (s.lossEvent b x) := by
  unfold State.lossEvent; split
  · split
    · exact withdraw ..
    · exact suspend ..
    · exact keepRecord _ _ _ fun _ => ⟨rfl, rfl⟩
    · exact refl s
    · exact refl s
    · exact refl s
    · exact refl s
    · exact refl s
  · exact refl s

theorem refreshRecord (s : State) (r : RecordId) : SessionMoves s (s.refreshRecord r) := by
  unfold State.refreshRecord
  dsimp only
  split
  · exact (keepRecord s r (fun g => { g with charge := s.chargeOf g }) fun _ => ⟨rfl, rfl⟩).trans (notice ..)
  · exact refl s

theorem grantSetEvent (s : State) : SessionMoves s s.grantSetEvent := foldl _ (fun t r => refreshRecord t r) _ s

theorem freeChain (s : State) (l : List RecordId) : SessionMoves s (s.freeChain l) := by
  refine foldl _ (fun t r => ?_) l s
  refine trans ?_ (freeRecordOf _ r)
  split
  · exact page _ _ _
  · exact refl t

theorem drain (s : State) : SessionMoves s s.drain := by
  unfold State.drain; split
  · exact refl s
  · split
    · rename_i h; exact (setWaiting ..).trans (issueReceipt _ _ h)
    · exact refl s

end SessionMoves

/-! ## Caps -/

/-- The caps are checked as the manual says when they are reached (R91, R144). -/
theorem State.atCap_iff (s : State) (head : RecordId) : s.AtCap head ↔ s.capReached head = true := by
  unfold State.AtCap State.capReached
  cases (s.record head).energyCap <;> cases (s.record head).costCap <;> simp

/-- Checking the caps closes a chain that stands at one of them (R91, R144). -/
theorem State.checkCaps_of_atCap {s : State} {head : RecordId} (h : s.AtCap head) (plugged : Bool) :
    s.checkCaps head plugged = s.closeChain head .capReached plugged := if_pos ((s.atCap_iff head).mp h)

/-- Checking the caps leaves a chain that stands at none of them (R91, R144). -/
theorem State.checkCaps_of_not_atCap {s : State} {head : RecordId} (h : ¬ s.AtCap head) (plugged : Bool) :
    s.checkCaps head plugged = s := if_neg fun k => h ((s.atCap_iff head).mpr k)

end Sys2Proof.Machine
end

