-- ==== Sys2Proof/Laws/Blocks.lean ====
section
/-! SUPPORT. What an owning block can do to the ports and to the queue of commands: hand over notices, and nothing to the
queue. -/

namespace Sys2Proof.Machine

/-- Whatever handing over a notice keeps of the ports is kept from one state to another, and the queue of commands
stands. -/
def NoticesOnly (s t : State) : Prop :=
  t.pending = s.pending ∧
    ∀ q : Ports → Prop, (∀ (u : State) (n : Notice), q u.mpt → q (u.notify n).mpt) → q s.mpt → q t.mpt

namespace NoticesOnly

theorem refl (s : State) : NoticesOnly s s := ⟨rfl, fun _ _ => id⟩

theorem trans {s t u : State} (h : NoticesOnly s t) (k : NoticesOnly t u) : NoticesOnly s u :=
  ⟨k.1.trans h.1, fun q hq => k.2 q hq ∘ h.2 q hq⟩

/-- A change that leaves the ports and the queue alone. -/
theorem of_eq {s t : State} (h : t.mpt = s.mpt) (k : t.pending = s.pending) : NoticesOnly s t :=
  ⟨k, fun _ _ => by rw [h]; exact id⟩

theorem notify (s : State) (n : Notice) : NoticesOnly s (s.notify n) := ⟨notify_pending .., fun _ hq => hq s n⟩

theorem of_moves {s t : State} (h : SessionMoves s t) : NoticesOnly s t := ⟨h.frame.pending, fun _ hq => h.ports hq⟩

/-! ## The owning blocks of the requests -/

theorem authorize (e : Nat) (a b c d f : Byte) (g h : Word32) (s : State) :
    NoticesOnly s (Machine.authorize e a b c d f g h s).state := by
  unfold Machine.authorize
  split
  · split
    · exact refl s
    · split
      · exact refl s
      · exact refl s
      · exact of_moves (.openRoot _ _ _ rfl)
  · exact refl s

theorem tillVoucher (e : Nat) (a c d f : Byte) (g h : Word32) (s : State) :
    NoticesOnly s (Machine.tillVoucher e a c d f g h s).state := by
  unfold Machine.tillVoucher
  split
  · exact refl s
  · dsimp only
    split
    · exact refl s
    · split
      · exact refl s
      · split
        · exact refl s
        · split
          · exact refl s
          · exact refl s
          · split
            · exact refl s
            · exact of_moves ((((SessionMoves.takeRecord _ _ _ (by rfl)).trans (.openRoot _ _ _ (by rfl))).trans
                (.setEndedLatch ..)).trans (.setNoContextMark ..))

theorem deny (a b : Byte) (s : State) : NoticesOnly s (Machine.deny a b s).state := by
  unfold Machine.deny
  split
  · split
    · exact refl s
    · exact of_moves (((SessionMoves.freeRecordOf ..).trans (.setSession ..)).trans (.setEndedLatch ..))
  · exact refl s

theorem stopSession (a : Byte) (s : State) : NoticesOnly s (Machine.stopSession a s).state := by
  unfold Machine.stopSession
  split
  · exact refl s
  · split
    · exact of_moves (.closeByTable ..)
    · exact refl s

theorem setClass (a b : Byte) (s : State) : NoticesOnly s (Machine.setClass a b s).state := by
  unfold Machine.setClass
  split
  · split
    · exact of_eq rfl rfl
    · exact refl s
  · exact refl s

theorem transfer (a b : Byte) (s : State) : NoticesOnly s (Machine.transfer a b s).state := by
  unfold Machine.transfer
  split
  · dsimp only
    split
    · exact refl s
    · split
      · exact refl s
      · split
        · exact refl s
        · split
          · exact refl s
          · exact of_moves (.beginTransfer ..)
  · exact refl s

theorem cancelTransfer (a : Byte) (s : State) : NoticesOnly s (Machine.cancelTransfer a s).state := by
  unfold Machine.cancelTransfer
  split
  · exact refl s
  · split
    · exact of_moves ((SessionMoves.releaseReservation ..).trans (.suspend ..))
    · exact refl s

theorem receiptAck (n : Word32) (s : State) : NoticesOnly s (Machine.receiptAck n s).state := by
  unfold Machine.receiptAck
  split
  · exact refl s
  · dsimp only
    refine trans ?_ (of_moves (.drain _))
    refine trans ?_ (of_moves (.freeChain _ _))
    exact of_eq rfl rfl

theorem receiptGet (n : Word32) (s : State) : NoticesOnly s (Machine.receiptGet n s).state := by
  unfold Machine.receiptGet
  split
  · exact refl s
  · split
    · exact refl s
    · exact notify ..

theorem setReceiptBase (n : Word32) (s : State) : NoticesOnly s (Machine.setReceiptBase n s).state := by
  unfold Machine.setReceiptBase
  split
  · exact refl s
  · split
    · exact refl s
    · exact of_eq rfl rfl

theorem pageOpen (p : Port) (a : Label) (b : Byte) (c : Word16) (d f : Byte) (g : Word16) (s : State) :
    NoticesOnly s (Machine.pageOpen p a b c d f g s).state := by
  unfold Machine.pageOpen
  split
  · split
    · exact refl s
    · split
      · exact refl s
      · split
        · exact refl s
        · exact of_eq rfl rfl
  · exact refl s

theorem pageWrite (p : Port) (a b : Byte) (l : List Byte) (s : State) :
    NoticesOnly s (Machine.pageWrite p a b l s).state := by
  unfold Machine.pageWrite
  split
  · exact refl s
  · split
    · exact refl s
    · split
      · exact refl s
      · split
        · exact refl s
        · split
          · exact refl s
          · exact of_eq rfl rfl

theorem pageDiscard (s : State) : NoticesOnly s (Machine.pageDiscard s).state := by
  unfold Machine.pageDiscard
  split
  · exact refl s
  · exact of_eq rfl rfl

theorem judge (pg : PageId) (s : State) : NoticesOnly s (s.judge pg) := by
  unfold State.judge
  split
  · exact refl s
  · exact of_eq rfl rfl

/-- A run of changes over a list. -/
theorem foldl {α : Type} (f : State → α → State) (hf : ∀ t a, NoticesOnly t (f t a)) (l : List α) (s : State) :
    NoticesOnly s (l.foldl f s) := by
  induction l generalizing s with
  | nil => exact refl s
  | cons a l ih => exact (hf s a).trans (ih _)

theorem publish (pg : PageId) (plans : Word16) (level : Nat) (s : State) :
    NoticesOnly s (s.publish pg plans level) := by
  unfold State.publish
  refine trans ?_ (foldl _ (fun t old => judge old t) _ _)
  refine trans (foldl (fun t p => t.setPlan p (some ⟨pg, level⟩)) (fun t p => of_eq rfl rfl) (planSet plans) s) ?_
  exact of_eq rfl rfl

theorem pagePublish (e : Nat) (p : Port) (a : Word16) (b : Byte) (s : State) :
    NoticesOnly s (Machine.pagePublish e p a b s).state := by
  unfold Machine.pagePublish
  split
  · exact refl s
  · split
    · exact refl s
    · split
      · exact refl s
      · split
        · exact refl s
        · split
          · exact refl s
          · split
            · exact refl s
            · exact publish ..

theorem planClear (e : Nat) (a : Byte) (s : State) : NoticesOnly s (Machine.planClear e a s).state := by
  unfold Machine.planClear
  split
  · exact refl s
  · split
    · exact refl s
    · split
      · exact refl s
      · exact trans (of_eq (t := s.setPlan _ none) rfl rfl) (judge ..)

theorem stageSlots (a : Byte) (b : Word16) (c : Word32) (s : State) :
    NoticesOnly s (Machine.stageSlots a b c s).state := by
  unfold Machine.stageSlots
  split
  · exact refl s
  · exact of_eq rfl rfl

theorem commitSchedule (s : State) : NoticesOnly s (Machine.commitSchedule s).state := by
  unfold Machine.commitSchedule
  split
  · exact refl s
  · exact refl s
  · exact of_eq rfl rfl

theorem curtail (a b : Word32) (s : State) : NoticesOnly s (Machine.curtail a b s).state := by
  unfold Machine.curtail
  split
  · exact refl s
  · exact of_eq rfl rfl

theorem curtailEnd (s : State) : NoticesOnly s (Machine.curtailEnd s).state := by
  unfold Machine.curtailEnd
  split
  · exact of_eq rfl rfl
  · exact refl s

theorem joinRecord (r : IntervalRecord) (s : State) : NoticesOnly s (s.joinRecord r) := by
  unfold State.joinRecord
  refine trans (of_eq (t := { s with
    ivm := { s.ivm with
      pendingRecords := s.ivm.pendingRecords ++ [{ r with number := s.ivm.nextNumber }]
      nextNumber := nextIntervalNumber s.ivm.nextNumber } }) rfl rfl) (notify _ _)

theorem placeRecord (r : IntervalRecord) (s : State) : NoticesOnly s (s.placeRecord r) := by
  unfold State.placeRecord
  split
  · exact of_eq rfl rfl
  · exact joinRecord ..

theorem closeInterval (i : Interval) (t : SiteTime) (v : Bool) (s : State) : NoticesOnly s (s.closeInterval i t v) := by
  unfold State.closeInterval
  refine trans (of_eq (t := { s with ivm := { s.ivm with carries := (i.acc.add s.ivm.carries).map (· % whMJ) } })
    rfl rfl) (placeRecord _ _)

theorem setClock (a : Word16) (b : Word32) (s : State) : NoticesOnly s (Machine.setClock a b s).state := by
  unfold Machine.setClock
  split
  · exact refl s
  · split
    · exact (closeInterval ..).trans (of_eq rfl rfl)
    · exact of_eq rfl rfl

theorem intervalAck (n : Word32) (s : State) : NoticesOnly s (Machine.intervalAck n s).state := by
  unfold Machine.intervalAck
  split
  · exact refl s
  · split
    · exact refl s
    · exact of_eq rfl rfl

theorem setSetting (a : Word16) (b : Word32) (s : State) : NoticesOnly s (Machine.setSetting a b s).state := by
  unfold Machine.setSetting
  split
  · exact refl s
  · split
    · exact refl s
    · split
      · exact refl s
      · exact of_eq rfl rfl

theorem getSession (a : Byte) (s : State) : (Machine.getSession a s).state = s := by
  unfold Machine.getSession; split <;> rfl

theorem getBay (a : Byte) (s : State) : (Machine.getBay a s).state = s := by
  unfold Machine.getBay; split <;> rfl

theorem getPlan (a : Byte) (s : State) : (Machine.getPlan a s).state = s := by
  unfold Machine.getPlan; split <;> rfl

/-! ## The events -/

theorem closeSweepBay (b : BayId) (s : State) : NoticesOnly s (s.closeSweepBay b) := by
  unfold State.closeSweepBay
  split
  · exact refl s
  · dsimp only
    split
    · exact of_eq rfl rfl
    · split
      · refine trans ?_ (of_moves (.lossEvent _ _ _)); exact of_eq rfl rfl
      · exact of_eq rfl rfl
      · exact of_eq rfl rfl
      · exact of_eq rfl rfl

theorem applyToBay (x y : Vector Masks 16) (b : BayId) (s : State) : NoticesOnly s (s.applyToBay x y b) := by
  unfold State.applyToBay
  split
  · refine trans ?_ (of_moves (.lossEvent _ _ _)); exact of_eq rfl rfl
  · exact of_eq rfl rfl
  · exact refl s
  · exact refl s

theorem closeSweep (s : State) : NoticesOnly s s.closeSweep := by
  unfold State.closeSweep
  split
  · exact foldl _ (fun t b => closeSweepBay b t) _ s
  · exact refl s

theorem applyCommit (s : State) : NoticesOnly s s.applyCommit := by
  unfold State.applyCommit
  split
  · exact refl s
  · refine trans ?_ (foldl _ (fun t b => applyToBay _ _ b t) _ _)
    exact of_eq rfl rfl

theorem sweepStart (s : State) : NoticesOnly s s.sweepStart :=
  ((closeSweep s).trans (applyCommit _)).trans (of_eq rfl rfl)

theorem takeStatus (b : BayId) (f : StatusFrame) (s : State) : NoticesOnly s (s.takeStatus b f) := by
  unfold State.takeStatus
  exact trans (of_moves (.statusEvent _ _ _ _ _)) (of_eq rfl rfl)

theorem routeDelta (b : BayId) (e : Nat) (c : Word32) (s : State) : SessionMoves s (s.routeDelta b e c) := by
  unfold State.routeDelta
  split
  · exact .addUnbilled ..
  · split
    · exact .meterEvent ..
    · exact .addUnbilled ..

theorem takeMeter (b : BayId) (f : MeterFrame) (s : State) : NoticesOnly s (s.takeMeter b f) := by
  unfold State.takeMeter
  exact trans (of_eq (t := s.readMeter b f) rfl rfl) (of_moves (routeDelta _ _ _ _))

theorem raiseAlarm (a : Option Alarm) (s : State) : NoticesOnly s (s.raiseAlarm a) := by
  unfold State.raiseAlarm
  split
  · exact notify ..
  · exact refl _

theorem allocate (m : MeasurementSet) (s : State) : NoticesOnly s (s.allocate m) :=
  (trans (of_eq (t := s.installSet m) rfl rfl) (of_moves (.grantSetEvent _))).trans (raiseAlarm _ _)

end NoticesOnly

/-! ## Start-up -/

/-- What start-up leaves: the part as it is handed to its first sweep, with that sweep begun (R2, R198). -/
theorem startUp_eq (cause : ResetCause) (image : StoredImage) (waiting : List Instr) :
    startUp cause image waiting =
      { readyToStart cause image waiting with
        blc := { (readyToStart cause image waiting).blc with sweepBegun := true } } := rfl

end Sys2Proof.Machine
end

