-- ==== Sys2Proof/Laws/PerInstr.lean ====
section
/-! SUPPORT. Facts about each command as a piece of syntax, one lemma for each constructor of `Instr`. -/

namespace Sys2Proof.Laws.BodyFits

-- One lemma at a time: a thread for each of the 57 would ask for more stack than a check allows.
set_option Elab.async false

open Sys2Proof

/-- The bytes that spell a well-formed request are as many as the request table allows its kind (R181); a command that
is no request is spelt by none. -/
def Statement (i : Instr) : Prop :=
  i.wellFormed = true → ∀ p k body, requestBytes i = some (p, k, body) →
    (requestRow k).least ≤ body.length ∧ body.length ≤ (requestRow k).greatest

theorem getStatus (p : Port) : Statement (.getStatus p) := by
  rintro - q k body h
  simp only [requestBytes, Option.some.injEq, Prod.mk.injEq] at h
  obtain ⟨-, rfl, rfl⟩ := h
  exact ⟨Nat.le_refl _, Nat.le_refl _⟩

theorem getBay (p : Port) (bay : Byte) : Statement (.getBay p bay) := by
  rintro - q k body h
  simp only [requestBytes, Option.some.injEq, Prod.mk.injEq] at h
  obtain ⟨-, rfl, rfl⟩ := h
  exact ⟨Nat.le_refl _, Nat.le_refl _⟩

theorem getSession (p : Port) (record : Byte) : Statement (.getSession p record) := by
  rintro - q k body h
  simp only [requestBytes, Option.some.injEq, Prod.mk.injEq] at h
  obtain ⟨-, rfl, rfl⟩ := h
  exact ⟨Nat.le_refl _, Nat.le_refl _⟩

theorem getPlan (p : Port) (plan : Byte) : Statement (.getPlan p plan) := by
  rintro - q k body h
  simp only [requestBytes, Option.some.injEq, Prod.mk.injEq] at h
  obtain ⟨-, rfl, rfl⟩ := h
  exact ⟨Nat.le_refl _, Nat.le_refl _⟩

theorem getSchedule (p : Port) : Statement (.getSchedule p) := by
  rintro - q k body h
  simp only [requestBytes, Option.some.injEq, Prod.mk.injEq] at h
  obtain ⟨-, rfl, rfl⟩ := h
  exact ⟨Nat.le_refl _, Nat.le_refl _⟩

theorem getInterval (p : Port) : Statement (.getInterval p) := by
  rintro - q k body h
  simp only [requestBytes, Option.some.injEq, Prod.mk.injEq] at h
  obtain ⟨-, rfl, rfl⟩ := h
  exact ⟨Nat.le_refl _, Nat.le_refl _⟩

theorem authorize (p : Port) (bay requestId plan cls capPresence : Byte) (energyCap costCap : Word32) :
    Statement (.authorize p bay requestId plan cls capPresence energyCap costCap) := by
  rintro - q k body h
  simp only [requestBytes, Option.some.injEq, Prod.mk.injEq] at h
  obtain ⟨-, rfl, rfl⟩ := h
  exact ⟨Nat.le_refl _, Nat.le_refl _⟩

theorem tillVoucher (p : Port) (bay plan cls capPresence : Byte) (energyCap costCap : Word32) :
    Statement (.tillVoucher p bay plan cls capPresence energyCap costCap) := by
  rintro - q k body h
  simp only [requestBytes, Option.some.injEq, Prod.mk.injEq] at h
  obtain ⟨-, rfl, rfl⟩ := h
  exact ⟨Nat.le_refl _, Nat.le_refl _⟩

theorem deny (p : Port) (bay requestId : Byte) : Statement (.deny p bay requestId) := by
  rintro - q k body h
  simp only [requestBytes, Option.some.injEq, Prod.mk.injEq] at h
  obtain ⟨-, rfl, rfl⟩ := h
  exact ⟨Nat.le_refl _, Nat.le_refl _⟩

theorem stopSession (p : Port) (record : Byte) : Statement (.stopSession p record) := by
  rintro - q k body h
  simp only [requestBytes, Option.some.injEq, Prod.mk.injEq] at h
  obtain ⟨-, rfl, rfl⟩ := h
  exact ⟨Nat.le_refl _, Nat.le_refl _⟩

theorem setClass (p : Port) (record cls : Byte) : Statement (.setClass p record cls) := by
  rintro - q k body h
  simp only [requestBytes, Option.some.injEq, Prod.mk.injEq] at h
  obtain ⟨-, rfl, rfl⟩ := h
  exact ⟨Nat.le_refl _, Nat.le_refl _⟩

theorem transfer (p : Port) (record target : Byte) : Statement (.transfer p record target) := by
  rintro - q k body h
  simp only [requestBytes, Option.some.injEq, Prod.mk.injEq] at h
  obtain ⟨-, rfl, rfl⟩ := h
  exact ⟨Nat.le_refl _, Nat.le_refl _⟩

theorem cancelTransfer (p : Port) (record : Byte) : Statement (.cancelTransfer p record) := by
  rintro - q k body h
  simp only [requestBytes, Option.some.injEq, Prod.mk.injEq] at h
  obtain ⟨-, rfl, rfl⟩ := h
  exact ⟨Nat.le_refl _, Nat.le_refl _⟩

theorem receiptAck (p : Port) (number : Word32) : Statement (.receiptAck p number) := by
  rintro - q k body h
  simp only [requestBytes, Option.some.injEq, Prod.mk.injEq] at h
  obtain ⟨-, rfl, rfl⟩ := h
  exact ⟨Nat.le_refl _, Nat.le_refl _⟩

theorem receiptGet (p : Port) (number : Word32) : Statement (.receiptGet p number) := by
  rintro - q k body h
  simp only [requestBytes, Option.some.injEq, Prod.mk.injEq] at h
  obtain ⟨-, rfl, rfl⟩ := h
  exact ⟨Nat.le_refl _, Nat.le_refl _⟩

theorem setReceiptBase (p : Port) (number : Word32) : Statement (.setReceiptBase p number) := by
  rintro - q k body h
  simp only [requestBytes, Option.some.injEq, Prod.mk.injEq] at h
  obtain ⟨-, rfl, rfl⟩ := h
  exact ⟨Nat.le_refl _, Nat.le_refl _⟩

theorem pageOpen (p : Port) (label : Label) (useLevel : Byte) (idleRate : Word16) (idleGrace capPresence : Byte) (idleCap : Word16) :
    Statement (.pageOpen p label useLevel idleRate idleGrace capPresence idleCap) := by
  rintro - q k body h
  simp only [requestBytes, Option.some.injEq, Prod.mk.injEq] at h
  obtain ⟨-, rfl, rfl⟩ := h
  exact ⟨Nat.le_refl _, Nat.le_refl _⟩

theorem pageWrite (p : Port) (first count : Byte) (entries : List Byte) :
    Statement (.pageWrite p first count entries) := by
  intro hw q k body h
  simp only [requestBytes, Option.some.injEq, Prod.mk.injEq] at h
  obtain ⟨-, rfl, rfl⟩ := h
  simp only [Instr.wellFormed, Instr.requestIdOk, Instr.entriesOk, Bool.true_and, Bool.and_eq_true,
    decide_eq_true_eq] at hw
  simp only [requestRow, List.length_cons]
  omega

theorem pagePublish (p : Port) (plans : Word16) (useLevel : Byte) : Statement (.pagePublish p plans useLevel) := by
  rintro - q k body h
  simp only [requestBytes, Option.some.injEq, Prod.mk.injEq] at h
  obtain ⟨-, rfl, rfl⟩ := h
  exact ⟨Nat.le_refl _, Nat.le_refl _⟩

theorem pageDiscard (p : Port) : Statement (.pageDiscard p) := by
  rintro - q k body h
  simp only [requestBytes, Option.some.injEq, Prod.mk.injEq] at h
  obtain ⟨-, rfl, rfl⟩ := h
  exact ⟨Nat.le_refl _, Nat.le_refl _⟩

theorem planClear (p : Port) (plan : Byte) : Statement (.planClear p plan) := by
  rintro - q k body h
  simp only [requestBytes, Option.some.injEq, Prod.mk.injEq] at h
  obtain ⟨-, rfl, rfl⟩ := h
  exact ⟨Nat.le_refl _, Nat.le_refl _⟩

theorem stageSlots (p : Port) (bay : Byte) (down : Word16) (up : Word32) : Statement (.stageSlots p bay down up) := by
  rintro - q k body h
  simp only [requestBytes, Option.some.injEq, Prod.mk.injEq] at h
  obtain ⟨-, rfl, rfl⟩ := h
  exact ⟨Nat.le_refl _, Nat.le_refl _⟩

theorem commitSchedule (p : Port) : Statement (.commitSchedule p) := by
  rintro - q k body h
  simp only [requestBytes, Option.some.injEq, Prod.mk.injEq] at h
  obtain ⟨-, rfl, rfl⟩ := h
  exact ⟨Nat.le_refl _, Nat.le_refl _⟩

theorem curtail (p : Port) (limit duration : Word32) : Statement (.curtail p limit duration) := by
  rintro - q k body h
  simp only [requestBytes, Option.some.injEq, Prod.mk.injEq] at h
  obtain ⟨-, rfl, rfl⟩ := h
  exact ⟨Nat.le_refl _, Nat.le_refl _⟩

theorem curtailEnd (p : Port) : Statement (.curtailEnd p) := by
  rintro - q k body h
  simp only [requestBytes, Option.some.injEq, Prod.mk.injEq] at h
  obtain ⟨-, rfl, rfl⟩ := h
  exact ⟨Nat.le_refl _, Nat.le_refl _⟩

theorem setClock (p : Port) (day : Word16) (ms : Word32) : Statement (.setClock p day ms) := by
  rintro - q k body h
  simp only [requestBytes, Option.some.injEq, Prod.mk.injEq] at h
  obtain ⟨-, rfl, rfl⟩ := h
  exact ⟨Nat.le_refl _, Nat.le_refl _⟩

theorem intervalAck (p : Port) (number : Word32) : Statement (.intervalAck p number) := by
  rintro - q k body h
  simp only [requestBytes, Option.some.injEq, Prod.mk.injEq] at h
  obtain ⟨-, rfl, rfl⟩ := h
  exact ⟨Nat.le_refl _, Nat.le_refl _⟩

theorem setSetting (p : Port) (id : Word16) (value : Word32) : Statement (.setSetting p id value) := by
  rintro - q k body h
  simp only [requestBytes, Option.some.injEq, Prod.mk.injEq] at h
  obtain ⟨-, rfl, rfl⟩ := h
  exact ⟨Nat.le_refl _, Nat.le_refl _⟩

theorem saveSettings (p : Port) : Statement (.saveSettings p) := by
  rintro - q k body h
  simp only [requestBytes, Option.some.injEq, Prod.mk.injEq] at h
  obtain ⟨-, rfl, rfl⟩ := h
  exact ⟨Nat.le_refl _, Nat.le_refl _⟩

theorem restart (p : Port) : Statement (.restart p) := by
  rintro - q k body h
  simp only [requestBytes, Option.some.injEq, Prod.mk.injEq] at h
  obtain ⟨-, rfl, rfl⟩ := h
  exact ⟨Nat.le_refl _, Nat.le_refl _⟩

theorem saveComplete : Statement (.saveComplete) := by
  rintro - q k body h
  exact absurd h nofun

theorem powerOn : Statement (.powerOn) := by
  rintro - q k body h
  exact absurd h nofun

theorem resetPin : Statement (.resetPin) := by
  rintro - q k body h
  exact absurd h nofun

theorem requestArrival (p : Port) (bytes : List Byte) : Statement (.requestArrival p bytes) := by
  rintro - q k body h
  exact absurd h nofun

theorem messageDiscard (p : Port) (bytes : List Byte) : Statement (.messageDiscard p bytes) := by
  rintro - q k body h
  exact absurd h nofun

theorem interByteTimeout (p : Port) (next : Byte) : Statement (.interByteTimeout p next) := by
  rintro - q k body h
  exact absurd h nofun

theorem serviceStart (p : Port) : Statement (.serviceStart p) := by
  rintro - q k body h
  exact absurd h nofun

theorem transmitComplete (p : Port) : Statement (.transmitComplete p) := by
  rintro - q k body h
  exact absurd h nofun

theorem sweepStart : Statement (.sweepStart) := by
  rintro - q k body h
  exact absurd h nofun

theorem grant (slot : Fin 16) : Statement (.grant slot) := by
  rintro - q k body h
  exact absurd h nofun

theorem status (slot : Fin 32) (heard : List Byte) : Statement (.status slot heard) := by
  rintro - q k body h
  exact absurd h nofun

theorem meter (slot : Fin 32) (heard : List Byte) : Statement (.meter slot heard) := by
  rintro - q k body h
  exact absurd h nofun

theorem discardedFrame (slot : Fin 32) (heard : List Byte) : Statement (.discardedFrame slot heard) := by
  rintro - q k body h
  exact absurd h nofun

theorem authTimeout (record : RecordId) : Statement (.authTimeout record) := by
  rintro - q k body h
  exact absurd h nofun

theorem resumeDeadlineExpiry (record : RecordId) : Statement (.resumeDeadlineExpiry record) := by
  rintro - q k body h
  exact absurd h nofun

theorem transferTimeout (record : RecordId) : Statement (.transferTimeout record) := by
  rintro - q k body h
  exact absurd h nofun

theorem curtailmentExpiry : Statement (.curtailmentExpiry) := by
  rintro - q k body h
  exact absurd h nofun

theorem poll : Statement (.poll) := by
  rintro - q k body h
  exact absurd h nofun

theorem canopySample (node : Fin 8) (heard : List Byte) : Statement (.canopySample node heard) := by
  rintro - q k body h
  exact absurd h nofun

theorem batterySample (heard : List Byte) : Statement (.batterySample heard) := by
  rintro - q k body h
  exact absurd h nofun

theorem meterSample (heard : List Byte) : Statement (.meterSample heard) := by
  rintro - q k body h
  exact absurd h nofun

theorem canopyDiscard (node : NodeId) (heard : List Byte) : Statement (.canopyDiscard node heard) := by
  rintro - q k body h
  exact absurd h nofun

theorem noReply (node : NodeId) (heard : List Byte) : Statement (.noReply node heard) := by
  rintro - q k body h
  exact absurd h nofun

theorem cycleEnd : Statement (.cycleEnd) := by
  rintro - q k body h
  exact absurd h nofun

theorem allocation : Statement (.allocation) := by
  rintro - q k body h
  exact absurd h nofun

theorem measurementSetAtIvm : Statement (.measurementSetAtIvm) := by
  rintro - q k body h
  exact absurd h nofun

theorem boundaryClose : Statement (.boundaryClose) := by
  rintro - q k body h
  exact absurd h nofun

end Sys2Proof.Laws.BodyFits
end

