-- ==== Sys2Proof/Laws/Receiver.lean ====
section
/-! SUPPORT. The receiver of a port: its fuel is enough for every byte, so bytes that arrive in parts are taken like the
same bytes at once (R178). -/

namespace Sys2Proof.Machine

/-! ## Fuel -/

/-- Fuel with which a receiver examines all of these bytes. -/
def scanBound (r : Receiver) (bytes : List Byte) : Nat :=
  match r with
  | .hunting => bytes.length * bytes.length
  | .inMessage taken => bytes.length + (taken.length + bytes.length) * (taken.length + bytes.length)

theorem scanBound_start {f : Nat} {b : Byte} {rest : List Byte} (h : scanBound .hunting (b :: rest) ≤ f + 1) :
    scanBound (.inMessage []) rest ≤ f ∧ scanBound .hunting rest ≤ f := by
  simp only [scanBound, List.length_cons, List.length_nil, Nat.zero_add] at *
  constructor <;> nlinarith

theorem scanBound_byte {f : Nat} {taken rest : List Byte} {b : Byte}
    (h : scanBound (.inMessage taken) (b :: rest) ≤ f + 1) :
    scanBound (.inMessage (taken ++ [b])) rest ≤ f ∧ scanBound .hunting (taken ++ b :: rest) ≤ f ∧
      scanBound .hunting rest ≤ f := by
  simp only [scanBound, List.length_cons, List.length_append, List.length_nil] at *
  refine ⟨?_, ?_, ?_⟩ <;> nlinarith

theorem scanBound_append (r : Receiver) (x y : List Byte) : scanBound r x ≤ scanBound r (x ++ y) := by
  cases r <;> simp only [scanBound, List.length_append] <;> nlinarith

theorem scanBound_examine (r : Receiver) (x : List Byte) :
    scanBound r x ≤ (r.taken.length + x.length + 1) * (r.taken.length + x.length + 1) := by
  cases r <;> simp only [scanBound, Receiver.taken, List.length_nil] <;> nlinarith

theorem scan_nil (f : Nat) (r : Receiver) : scan f r [] = ([], r) := by
  cases f <;> cases r <;> rfl

/-- With enough fuel the fuel does not show. -/
theorem scan_fuel : ∀ (f g : Nat) (r : Receiver) (x : List Byte), scanBound r x ≤ f → scanBound r x ≤ g →
    scan f r x = scan g r x := by
  intro f
  induction f with
  | zero =>
    intro g r x h _
    cases x with
    | nil => rw [scan_nil, scan_nil]
    | cons b rest => cases r <;> simp [scanBound] at h
  | succ f ih =>
    intro g r x hf hg
    cases x with
    | nil => rw [scan_nil, scan_nil]
    | cons b rest =>
      cases g with
      | zero => cases r <;> simp [scanBound] at hg
      | succ g =>
        cases r with
        | hunting =>
          obtain ⟨f1, f2⟩ := scanBound_start hf
          obtain ⟨g1, g2⟩ := scanBound_start hg
          simp only [scan, ih g _ _ f1 g1, ih g _ _ f2 g2]
        | inMessage taken =>
          obtain ⟨f1, f2, f3⟩ := scanBound_byte hf
          obtain ⟨g1, g2, g3⟩ := scanBound_byte hg
          simp only [scan, ih g _ _ f1 g1, ih g _ _ f2 g2, ih g _ _ f3 g3]

/-! ## Parts -/

/-- Bytes examined in two parts are met like the same bytes at once: the receiver goes on from where it stands. -/
theorem scan_append : ∀ (f g : Nat) (r : Receiver) (x y : List Byte), scanBound r (x ++ y) ≤ f →
    (∀ q : Receiver, q = (scan f r x).2 → scanBound q y ≤ g) →
    scan f r (x ++ y) = ((scan f r x).1 ++ (scan g (scan f r x).2 y).1, (scan g (scan f r x).2 y).2) := by
  intro f g
  induction f with
  | zero =>
    intro r x y h hg
    cases x with
    | nil =>
      rw [scan_nil] at hg ⊢
      simpa using scan_fuel 0 g r y h (hg r rfl)
    | cons b rest => cases r <;> simp [scanBound] at h
  | succ f ih =>
    intro r x y h hg
    cases x with
    | nil =>
      rw [scan_nil] at hg ⊢
      simpa using scan_fuel (f + 1) g r y h (hg r rfl)
    | cons b rest =>
      cases r with
      | hunting =>
        obtain ⟨h1, h2⟩ := scanBound_start h
        simp only [List.cons_append, scan] at hg ⊢
        split
        · rename_i hb; rw [if_pos hb] at hg; exact ih _ _ _ h1 hg
        · rename_i hb; rw [if_neg hb] at hg; exact ih _ _ _ h2 hg
      | inMessage taken =>
        obtain ⟨h1, h2, h3⟩ := scanBound_byte h
        simp only [List.cons_append, scan] at hg ⊢
        cases hf : framing (taken ++ [b]) with
        | incomplete => rw [hf] at hg; exact ih _ _ _ h1 hg
        | damaged =>
          rw [hf] at hg
          have h2' : scanBound .hunting ((taken ++ b :: rest) ++ y) ≤ f := by simpa using h2
          have := ih .hunting (taken ++ b :: rest) y h2' hg
          simp only [List.append_assoc, List.cons_append] at this
          simp [this]
        | whole m =>
          rw [hf] at hg
          simp [ih _ _ _ h3 hg]

/-- What a receiver meets in bytes that arrive in two parts. -/
theorem examine_append (r : Receiver) (x y : List Byte) :
    examine r (x ++ y) =
      ((examine r x).1 ++ (examine (examine r x).2 y).1, (examine (examine r x).2 y).2) := by
  have hx : scan ((r.taken.length + (x ++ y).length + 1) * (r.taken.length + (x ++ y).length + 1)) r x =
      examine r x :=
    scan_fuel _ _ _ _ (Nat.le_trans (scanBound_append r x y) (scanBound_examine r _)) (scanBound_examine r x)
  have h := scan_append _
    (((examine r x).2.taken.length + y.length + 1) * ((examine r x).2.taken.length + y.length + 1)) r x y
    (scanBound_examine r (x ++ y)) (fun q hq => by rw [hq, hx]; exact scanBound_examine _ y)
  rw [hx] at h
  exact h

namespace PortContext

theorem accept_receiver (q : Request) (c : PortContext) (r : Receiver) :
    accept q { c with receiver := r } = { accept q c with receiver := r } := by
  unfold accept handBusy append drop busyReply replyMessage
  dsimp only
  split
  · rfl
  · split
    · split <;> rfl
    · rfl

theorem receive_receiver (x : Reception) (c : PortContext) (r : Receiver) :
    receive x { c with receiver := r } = { receive x c with receiver := r } := by
  unfold receive
  split
  · rfl
  · split
    · exact accept_receiver _ c r
    · rfl

theorem received_receiver (l : List Reception) (c : PortContext) (r : Receiver) :
    l.foldl (fun c x => c.receive x) { c with receiver := r } =
      { l.foldl (fun c x => c.receive x) c with receiver := r } := by
  induction l generalizing c with
  | nil => rfl
  | cons x l ih => rw [List.foldl_cons, receive_receiver, ih, List.foldl_cons]

/-- Taking bytes takes what they complete, and leaves the receiver where the bytes leave it. -/
theorem take_eq (c : PortContext) (x : List Byte) :
    c.take x =
      { (examine c.receiver x).1.foldl (fun c x => c.receive x) c with receiver := (examine c.receiver x).2 } :=
  received_receiver _ c _

/-- A port takes bytes in two parts like the same bytes at once. -/
theorem take_append (c : PortContext) (x y : List Byte) : (c.take x).take y = c.take (x ++ y) := by
  have h : (c.take x).receiver = (examine c.receiver x).2 := by rw [take_eq]
  rw [take_eq _ y, h, take_eq c x, received_receiver, take_eq c (x ++ y), examine_append, List.foldl_append]

end PortContext

end Sys2Proof.Machine
end

