-- ==== Sys2Proof/Tests/Slice0.lean ====
section
/-! SUPPORT. Tests: ill-formed terms refused, the manual's worked figures, and for each statement with hypotheses a
state and operands that meet them. -/

namespace Sys2Proof.Tests

-- One theorem at a time: the kernel evaluations below would each hold a thread of their own.
set_option Elab.async false

open Sys2Proof Sys2Proof.Machine

/-! ## Well-formed commands -/

theorem test_authorize_with_request_id_zero_refused :
    (Instr.authorize .a 3 0 1 1 0 0 0).wellFormed = false ∧ (Instr.authorize .a 3 1 1 1 0 0 0).wellFormed = true := by
  decide

theorem test_page_write_of_five_and_of_seventy_three_bytes_refused :
    (Instr.pageWrite .a 0 1 (List.replicate 5 0)).wellFormed = false ∧
      (Instr.pageWrite .a 0 1 (List.replicate 6 0)).wellFormed = true ∧
      (Instr.pageWrite .a 0 12 (List.replicate 72 0)).wellFormed = true ∧
      (Instr.pageWrite .a 0 12 (List.replicate 73 0)).wellFormed = false := by decide

/-! ## The manual's worked figures -/

/-- The CRC of the ASCII bytes "123456789" (R10). -/
theorem test_crc_of_nine_digits :
    crc16 [0x31, 0x32, 0x33, 0x34, 0x35, 0x36, 0x37, 0x38, 0x39] = 0x29B1 := by decide +kernel

/-- The header bytes of R189. -/
theorem test_header_bytes :
    [0x3#4, 0x5#4, 0x6#4, 0x9#4, 0xA#4, 0xC#4, 0xD#4].map headerOf =
      [0x1E, 0x2D, 0x33, 0xCC, 0xD2, 0xE1, 0x66] := by decide

/-- The worked decode of the STATUS header: position 6 inverted, then positions 3 and 6. -/
theorem test_status_header_with_errors :
    decodeHeader (headerOf 0x5#4 ^^^ 0x20) = .read 0x5 (headerOf 0x5#4) true ∧
      decodeHeader (headerOf 0x5#4 ^^^ 0x24) = .doubleError := by decide

/-- Bay 9's wrap and jump. -/
theorem test_meter_wrap_and_jump :
    meterDelta (some 4294960000) 3000 = (10296, false) ∧ meterDelta (some 10000) 500000 = (0, true) := by decide

/-- The three means of the window figures. -/
theorem test_window_means :
    (45007 : Int).tdiv 15 = 3000 ∧
      (Node.closeWindow 3 { Node.fresh with windowSum := 63990, windowCount := 16 }).mean = 3999 ∧
      (Node.closeWindow 3 { Node.fresh with windowSum := -96010, windowCount := 16 }).mean = -6000 := by decide

/-- Twelve periods, then a window start of 15. -/
theorem test_effective_window :
    effectiveStop { Settings.defaults with periodsPerCycle := 12 } = 11 ∧
      effectiveStart { Settings.defaults with periodsPerCycle := 12 } = 4 ∧
      effectiveStart { Settings.defaults with periodsPerCycle := 12, windowStart := 15 } = 11 := by decide

/-- The fill at its limits: pools of 5,580, 16,000 and 30,000. -/
theorem test_fill_at_its_limits :
    [5580, 16000, 30000].map (fun pool => (fill pool [⟨4, 1, 1, 200, 69⟩, ⟨8, 1, 2, 320, 23⟩]).map (·.grant)) =
      [[60, 61], [174, 173], [200, 320]] := by decide +kernel

/-- One delta of 11 Wh at the shares (421, 140, 439). -/
theorem test_one_delta :
    Segment.opened 11 ⟨421, 140, 439⟩ ⟨0, 0, 0⟩ none = ⟨⟨0, 0, 0⟩, none, 4631, 1540, 4829⟩ := by decide

/-- Segment costs of 259 cents, 1 cent and 0. -/
theorem test_segment_costs :
    Segment.cost ⟨⟨1800, 2900, 3900⟩, none, 2340000, 410000, 5250000⟩ = 259 ∧
      Segment.cost ⟨⟨0, 0, 4000⟩, none, 0, 0, 12500⟩ = 1 ∧ Segment.cost ⟨⟨0, 0, 4000⟩, none, 0, 0, 12499⟩ = 0 := by
  decide

/-- The idle fees of the worked table. -/
theorem test_idle_fees :
    [1790, 1799, 1805, 5400, 9000].map
        (Page.idleFee { Page.cleared with idleRate := 50, idleGrace := 20, idleCap := some 600 }) =
      [0, 0, 50, 350, 600] := by decide +kernel

/-- Slots 27, 28 and 30. -/
theorem test_tariff_slots :
    [50399600, 50400100, 54000400].map (fun ms : Fin 86400000 => (SiteTime.tariffSlot ⟨0, ms⟩).val) = [27, 28, 30] := by
  decide

/-- One cycle of 2,000 ms. -/
theorem test_one_cycle_of_energy (m : MeasurementSet) (h : m.grid = 61500) (k : m.solar = 24000) (b : m.battery = -3000)
    (d : m.duration = 2000) : setEnergy m 40000 = ⟨123000000, 0, 48000000, 0, 6000000, 80000000⟩ := by
  simp [setEnergy, h, k, b, d]

/-! ## The busy afternoon -/

/-- A bay of the worked allocation, with what an allocation reads of it. -/
def afternoonBay (b : BayId) (r : RecordId) (cls : Fin 3) (seq : Word32) (phases request : Nat) (s : State) : State :=
  let t := (s.modBay b fun e =>
    { e with link := .online, session := some r, lastStatus := ⟨.demanding, request, 0, some 1⟩
             recordedStart := some seq }).modRecord r fun g =>
    { g with state := .active, bay := b, cls := cls, startSeq := some seq }
  { t with sst := { t.sst with working := { t.sst.working with phases := put t.sst.working.phases b phases } } }

/-- The bays of the worked allocation; 58,000 W of last power stands on bay 2. -/
def afternoonBays : State :=
  (afternoonBay 11 4 2 53 3 160 (afternoonBay 9 3 1 47 1 320 (afternoonBay 6 2 1 44 3 320
    (afternoonBay 5 1 1 41 3 320 (afternoonBay 2 0 0 50 3 160 State.reset))))).modBay 2 fun e =>
      { e with lastPower := 58000 }

/-- The measurement set of the busy afternoon, cycle 4,812. -/
def afternoonSet : MeasurementSet :=
  ⟨4812, 2000, none, Vector.replicate 8 3000, 24000, 8000, 540, 8000, 6000, 96000, Vector.replicate 10 false,
    Vector.replicate 10 false, false⟩

/-- The budget terms of the busy afternoon. -/
theorem test_busy_afternoon_terms :
    afternoonBays.terms afternoonSet =
      ⟨100000, .setting, 58000, 70000, 25000, 8000, 6000, 62560, 49000, 8000, 57000⟩ := by decide +kernel

/-- The grants of the busy afternoon, its shares and its setpoint. No bay has a prior grant here, so each is of group
(c); the order within class 1 is the same. -/
theorem test_busy_afternoon_grants :
    [2, 5, 6, 9, 11].map (fun b : BayId => (afternoonBays.newGrantSet afternoonSet).grants[b.val]) =
        [160, 286, 285, 285, 0] ∧
      (afternoonBays.newGrantSet afternoonSet).shares01 = ⟨421, 140, 439⟩ ∧
      (afternoonBays.newGrantSet afternoonSet).setpoint = 8000 ∧
      (afternoonBays.newShedding afternoonSet).stack = [⟨11, 4812⟩] := by decide +kernel

/-! ## The bright noon -/

/-- Bays 3 and 12 at noon, with an export limit of 5,000 W. -/
def noonBays : State :=
  let s := (afternoonBay 12 1 2 2 1 160 (afternoonBay 3 0 1 1 3 220 State.reset)).modBay 3 fun e =>
    { e with lastPower := 15000 }
  { s with sst := { s.sst with working := { s.sst.working with exportLimit := some 5000 } } }

/-- The measurement set at noon. -/
def noonSet : MeasurementSet :=
  ⟨1, 2000, none, #v[20000, 15000, 15000, 10000, 0, 0, 0, 0], 60000, -5000, 940, 8000, 6000, -20000,
    Vector.replicate 10 false, Vector.replicate 10 false, false⟩

/-- The planned export, the total ceiling and the ceilings of the bright noon. -/
theorem test_bright_noon_ceilings :
    (noonBays.newGrantSet noonSet).exportPlanned = 15140 ∧ (noonBays.newGrantSet noonSet).totalCeiling = some 51860 ∧
      (noonBays.newGrantSet noonSet).ceilings.toList =
        [some 17286, some 12965, some 12965, some 8643, some 0, some 0, some 0, some 0] ∧
      (noonBays.newGrantSet noonSet).setpoint = -6000 ∧ (noonBays.newGrantSet noonSet).pool2 = 24820 := by
  decide +kernel

/-! ## Worked sequences -/

/-- The guard through the interval 10:00–10:15. -/
theorem test_guard_through_an_interval :
    [((36000000 : Fin 86400000), 0), (36600000, 75000000000), (36890000, 106800000000), (36899850, 107990000000),
        (36899900, 108150000000)].map (fun x : Fin 86400000 × Nat =>
      guardOf 120000 2000 ⟨0, x.1⟩
        ⟨⟨0, 36000000⟩, ⟨0, 36900000⟩, ⟨x.2, 0, 0, 0, 0, 0⟩, 0, false, false, 0, 0⟩) =
      [120000, 110000, 120000, 5000, 0] := by decide +kernel

/-- The interval from `a` to `b` minutes of a day with this import and peak. -/
def workedInterval (a b : Fin 1440) (mJ peak : Nat) : Interval :=
  ⟨⟨0, ⟨60000 * a.val, by have := a.isLt; omega⟩⟩, ⟨0, ⟨60000 * b.val, by have := b.isLt; omega⟩⟩,
    ⟨mJ, 0, 0, 0, 0, 0⟩, peak, false, false, 0, 0⟩

/-- The four closes from 10:15 to 11:00, the next number 41. -/
theorem test_backlog_of_intervals :
    let close := fun (s : State) (i : Interval) => s.closeInterval i i.stop false
    let start : State := { State.reset with ivm := { State.reset.ivm with nextNumber := 41 } }
    let last := [workedInterval 600 615 53999999000 68400, workedInterval 615 630 54000401000 71200,
      workedInterval 630 645 51120000000 74050, workedInterval 645 660 50220000000 66000].foldl close start
    last.ivm.pendingRecords.map (fun r : IntervalRecord => (r.number, r.wh.imported, r.peak, r.mergedCount)) =
        [(41, 14999, 68400, 0), (42, 43151, 74050, 2)] ∧
      last.ivm.carries.imported = 400000 := by decide +kernel

/-- Bays 8–15 disabled and bay 6 staged at downstream 6 and upstream 5 and 12: the clash of bays 2 and 6 at 5. -/
theorem test_clash_with_the_defaults :
    let s := State.reset.setWorking
      { Settings.defaults with enabled := Vector.ofFn fun b : BayId => decide (b.val < 8) }
    (commitSchedule { s with blc := { s.blc with staged := put s.blc.staged 6 ⟨0x40, 0x1020⟩ } }).contents =
        .clash false 5 2 6 ∧
      (commitSchedule { s with blc := { s.blc with staged := put s.blc.staged 6 ⟨0x40, 0x11000⟩ } }).code = .ok := by
  decide +kernel

/-- A GET_BAY of bay 16 from its bytes to its reply: arrival, service, and the block's answer. -/
theorem test_request_from_bytes_to_reply :
    let request := Instr.getBay .b 16
    let commands : List Instr := [.requestArrival .b (requestMessage 2 0xBEEF 0x02 [16]), .serviceStart .b, request]
    (commands.foldl (fun s c =>
      match exec c s with
      | .next t => t
      | _ => s) State.reset).mpt.portB.transmitQueue =
      [⟨2, 0xBEEF, 0x02, false, .reply ⟨.badArg, 1, 0, 0, .nothing⟩⟩] := by decide +kernel

/-- The layout of the reply above, a head alone (R183, R187). -/
theorem test_reply_bytes :
    (Message.bytes ⟨2, 0xBEEF, 0x02, false, .reply ⟨.badArg, 1, 0, 0, .nothing⟩⟩).map (·.take 18) =
      some [0xC3, 0, 10, 2, 0xBE, 0xEF, 0x02, 1, 3, 1, 0, 0, 0, 0, 0, 0, 0, 0] := by decide +kernel

/-! ## States for the witnesses -/

/-- A time of day. -/
def noon : SiteTime := ⟨5, 43200000⟩

/-- 15 s later. -/
def soon : SiteTime := ⟨5, 43215000⟩

/-- The interval that began at noon. -/
def noonInterval : Interval := ⟨noon, ⟨5, 44100000⟩, Six.zero, 0, true, false, 0, 0⟩

/-- The part with its clock at a time. -/
def clockedAt (t : SiteTime) : State :=
  { State.reset with ivm := { State.reset.ivm with clock := some t, current := some noonInterval } }

/-- A report of a vehicle with token 7. -/
def report (v : VehicleState) : Report := ⟨v, 320, 0, some 7⟩

/-- A page written whole and in use. -/
def fullPage (state : PageState) (pins : Nat) : Page :=
  { Page.cleared with
    state := state
    useLevel := 2
    slots := Vector.replicate 48 ⟨1800, 2900, 3900⟩
    written := Vector.replicate 48 true
    pins := pins }

/-- Bay 3 ONLINE with a vehicle, and plan 15 on page 0, at a time. -/
def siteAt (t : SiteTime) (v : VehicleState) : State :=
  ((((clockedAt t).modBay 3 fun e =>
    { e with
      link := .online, lastStatus := report v, lastStatusTime := some noon, lastCounter := some 1000 }).modPage 0
        fun _ => fullPage .published 1).setPlan 15 (some ⟨0, 2⟩))

/-- A PENDING record of bay 3. -/
def asking : Record :=
  { Record.cleared with state := .pending, bay := 3, token := some 7, depth := 1, authDeadline := some soon }

/-- A record of bay 3 past authorisation. -/
def charging (state : RecordState) : Record :=
  { Record.cleared with
    state := state
    bay := 3
    token := some 7
    plan := some 15
    page := some 0
    depth := 1
    startSeq := some 1
    startTime := some noon
    meterLast := some 1000
    metered := 1
    segments := [⟨⟨1800, 2900, 3900⟩, some noon, 0, 0, 1000⟩] }

/-- Record 31 is this one, the live record of bay 3. -/
def withLive (g : Record) (s : State) : State := (s.modRecord 31 fun _ => g).setSession 3 (some 31)

/-- A request stands at its owning block at level `e`. -/
def handed (e : Nat) (c : Instr) (s : State) : State :=
  match requestBytes c with
  | some (p, k, body) =>
    s.modPort p fun x => { x with receiveQueue := [⟨0, 0x1234, kindByte k, body⟩], service := .handed e }
  | none => s

/-- A receipt with this number for the chain of record 31. -/
def receiptOf (n : Word32) : Receipt := { State.reset.buildReceipt n 31 with startSeq := 1 }

/-- A grant set with nothing granted. -/
def idleSet : GrantSet := State.reset.newGrantSet afternoonSet

/-! ## Witnesses: the machine -/

theorem witness_StepTakesFrontCommand :
    ({ State.reset with pending := [.sweepStart, .poll] } : State).pending = .sweepStart :: [.poll] := rfl

/-- Durations of 1 ms and the greatest below half the span. -/
theorem witness_TimePassesOnTheSpan :
    State.reset.pending = [] ∧ (0 < 1 ∧ 2 * 1 < clockSpan) ∧
      (0 < 2831155199999 ∧ 2 * 2831155199999 < clockSpan) := by decide

/-- A state with a waiting command and something in every block. -/
def busy : State :=
  let s := withLive (charging .active) (siteAt noon .demanding)
  { s with ale := { s.ale with current := some idleSet }, rcq := ⟨[receiptOf 1], 2⟩, pending := [.sweepStart] }

theorem witness_PortQueuesStayBounded : busy.PortsSound ∧ ∃ t, step busy = .next t := by
  refine ⟨?_, _, rfl⟩
  unfold State.PortsSound PortContext.Sound
  decide +kernel

theorem witness_RecordsStayBounded : (busy.RecordsSound ∧ busy.CarriesSound) ∧ ∃ t, step busy = .next t := by
  refine ⟨⟨?_, ?_⟩, _, rfl⟩
  · unfold State.RecordsSound
    decide +kernel
  · unfold State.CarriesSound Six.All
    decide +kernel

theorem witness_LinkStatesFollowTheSchedule : busy.LinksSound ∧ ∃ t, step busy = .next t := by
  refine ⟨?_, _, rfl⟩
  unfold State.LinksSound
  decide +kernel

theorem witness_EnergyStaysBalanced : busy.EnergySound ∧ ∃ t, step busy = .next t := by
  refine ⟨⟨?_, ?_⟩, _, rfl⟩
  · unfold Record.Balanced
    decide +kernel
  · intro g h
    have h : some idleSet = some g := h
    cases h
    unfold Shares.Whole
    decide +kernel

theorem witness_LevelZeroStaysReachable : busy.LevelZeroSound ∧ ∃ t, step busy = .next t := by
  refine ⟨⟨?_, ?_, ?_⟩, _, rfl⟩
  · unfold Settings.LevelZero
    decide +kernel
  · unfold Settings.LevelZero
    decide +kernel
  · intro copy p h
    exact absurd h nofun

/-! ## Witnesses: requests -/

theorem witness_RequestBodiesRoundTrip :
    (Instr.authorize .b 15 32 15 2 3 1 1).wellFormed = true ∧
      requestBytes (.authorize .b 15 32 15 2 3 1 1) =
        some (.b, .authorize, [15, 32, 15, 2, 3, 0, 0, 0, 1, 0, 0, 0, 1]) ∧
      (Instr.pageWrite .a 47 1 [0, 1, 0, 2, 0, 3]).wellFormed = true ∧
      requestBytes (.pageWrite .a 47 1 [0, 1, 0, 2, 0, 3]) = some (.a, .pageWrite, [47, 1, 0, 1, 0, 2, 0, 3]) := by
  decide

/-- A DENY of bay 16, answered BAD_ARG. -/
theorem witness_RefusalsLeaveTheState :
    ∃ t r, requestBytes (.deny .a 16 1) = some (.a, .deny, [16, 1]) ∧
      (handed 2 (.deny .a 16 1) State.reset).takenLevel .a (.deny .a 16 1) = some 2 ∧
      exec (.deny .a 16 1) (handed 2 (.deny .a 16 1) State.reset) = .next t ∧
      (t.port .a).service = .unchecked ∧ t.LastReply .a r ∧ r.code.carriedOut = false :=
  ⟨_, _, rfl, rfl, rfl, rfl, ⟨_, rfl, rfl⟩, rfl⟩

theorem witness_ReadRequestsAnswer :
    (handed 2 (.getStatus .a) busy).takenLevel .a (.getStatus .a) = some 2 ∧
      (handed 1 (.getSchedule .a) busy).takenLevel .a (.getSchedule .a) = some 1 ∧
      (handed 1 (.getInterval .a) busy).takenLevel .a (.getInterval .a) = some 1 ∧
      ((handed 2 (.getBay .b 15) busy).takenLevel .b (.getBay .b 15) = some 2 ∧ (15 : Byte).toNat = (15 : BayId).val) ∧
      ((handed 2 (.getBay .b 16) busy).takenLevel .b (.getBay .b 16) = some 2 ∧ 15 < (16 : Byte).toNat) ∧
      ((handed 2 (.getSession .b 0) busy).takenLevel .b (.getSession .b 0) = some 2 ∧
        (0 : Byte).toNat = (0 : RecordId).val ∧ ((handed 2 (.getSession .b 0) busy).record 0).state = .free) ∧
      ((handed 2 (.getSession .b 31) busy).takenLevel .b (.getSession .b 31) = some 2 ∧
        (31 : Byte).toNat = (31 : RecordId).val ∧ ((handed 2 (.getSession .b 31) busy).record 31).state ≠ .free) ∧
      ((handed 2 (.getSession .b 32) busy).takenLevel .b (.getSession .b 32) = some 2 ∧ 31 < (32 : Byte).toNat) ∧
      ((handed 2 (.getPlan .b 15) busy).takenLevel .b (.getPlan .b 15) = some 2 ∧
        (15 : Byte).toNat = (15 : PlanId).val) ∧
      ((handed 2 (.getPlan .b 16) busy).takenLevel .b (.getPlan .b 16) = some 2 ∧ 15 < (16 : Byte).toNat) := by
  decide +kernel

/-! ## Witnesses: sessions -/

/-- Operands in range, a request id of 33 and a bay of 16. -/
theorem witness_SessionOperandsChecked :
    sessionOperands 15 15 2 3 1 1 = some ⟨15, 15, 2, some 1, some 1⟩ ∧
      ((handed 2 (.authorize .b 15 33 15 2 3 1 1) busy).takenLevel .b (.authorize .b 15 33 15 2 3 1 1) = some 2 ∧
        32 < (33 : Byte).toNat) ∧
      ((handed 2 (.tillVoucher .b 16 15 2 3 1 1) busy).takenLevel .b (.tillVoucher .b 16 15 2 3 1 1) = some 2 ∧
        15 < (16 : Byte).toNat) := by decide +kernel

/-- Bay 3 asks for authorisation. -/
def asked : State := withLive asking (siteAt noon .plugged)

theorem witness_AuthorizeActivates :
    (handed 2 (.authorize .b 3 32 15 2 3 1 1) asked).takenLevel .b (.authorize .b 3 32 15 2 3 1 1) = some 2 ∧
      sessionOperands 3 15 2 3 1 1 = some ⟨3, 15, 2, some 1, some 1⟩ ∧ (32 : Byte).toNat = (31 : RecordId).val + 1 ∧
      ((handed 2 (.authorize .b 3 32 15 2 3 1 1) asked).record 31).state = .pending ∧
      ((handed 2 (.authorize .b 3 32 15 2 3 1 1) asked).record 31).bay = 3 ∧
      (handed 2 (.authorize .b 3 32 15 2 3 1 1) asked).planUse 2 15 = .usable 0 := by decide +kernel

/-- BAD_ARG by request id 33, TOO_LATE by record 0, NO_PLAN by plan 14, DENIED by a page of use level 2 at level 3. -/
theorem witness_AuthorizeActivates_refusals :
    ((handed 2 (.authorize .b 3 33 15 2 0 0 0) asked).takenLevel .b (.authorize .b 3 33 15 2 0 0 0) = some 2 ∧
        32 < (33 : Byte).toNat) ∧
      ((handed 2 (.authorize .b 3 1 15 2 0 0 0) asked).takenLevel .b (.authorize .b 3 1 15 2 0 0 0) = some 2 ∧
        sessionOperands 3 15 2 0 0 0 = some ⟨3, 15, 2, none, none⟩ ∧ (1 : Byte).toNat = (0 : RecordId).val + 1 ∧
        ((handed 2 (.authorize .b 3 1 15 2 0 0 0) asked).record 0).state ≠ .pending) ∧
      ((handed 2 (.authorize .b 3 32 14 2 0 0 0) asked).takenLevel .b (.authorize .b 3 32 14 2 0 0 0) = some 2 ∧
        sessionOperands 3 14 2 0 0 0 = some ⟨3, 14, 2, none, none⟩ ∧
        ((handed 2 (.authorize .b 3 32 14 2 0 0 0) asked).record 31).state = .pending ∧
        ((handed 2 (.authorize .b 3 32 14 2 0 0 0) asked).record 31).bay = 3 ∧
        (handed 2 (.authorize .b 3 32 14 2 0 0 0) asked).plan 14 = none) ∧
      ((handed 2 (.authorize .b 3 32 15 2 0 0 0) (asked.setPlan 15 (some ⟨0, 1⟩))).takenLevel .b
          (.authorize .b 3 32 15 2 0 0 0) = some 2 ∧
        (handed 2 (.authorize .b 3 32 15 2 0 0 0) (asked.setPlan 15 (some ⟨0, 1⟩))).plan 15 = some ⟨0, 1⟩ ∧ 1 < 2) := by
  decide +kernel

theorem witness_TillVoucherOpens :
    let s := handed 2 (.tillVoucher .b 3 15 0 0 0 0) (siteAt noon .demanding)
    s.takenLevel .b (.tillVoucher .b 3 15 0 0 0 0) = some 2 ∧
      sessionOperands 3 15 0 0 0 0 = some ⟨3, 15, 0, none, none⟩ ∧ s.now ≠ none ∧ (s.bay 3).link = .online ∧
      (s.bay 3).lastStatus.vehicle = .demanding ∧ (s.bay 3).session = none ∧ (s.bay 3).reservedFor = none ∧
      s.planUse 2 15 = .usable 0 ∧ s.freeRecord = some 0 := by decide +kernel

/-- A state for each refusal: bay 16, the clock unset, no vehicle, a live record, plan 14, level 2 against 1, no
record. -/
theorem witness_TillVoucherOpens_refusals :
    let free := siteAt noon .demanding
    let taken : State := { free with ssm := { free.ssm with records := Vector.replicate 32 (charging .receipted) } }
    let c := Instr.tillVoucher .b 3 15 0 0 0 0
    ((handed 2 (.tillVoucher .b 16 15 0 0 0 0) free).takenLevel .b (.tillVoucher .b 16 15 0 0 0 0) = some 2 ∧
        sessionOperands 16 15 0 0 0 0 = none) ∧
      ((handed 2 c State.reset).takenLevel .b c = some 2 ∧ sessionOperands 3 15 0 0 0 0 = some ⟨3, 15, 0, none, none⟩ ∧
        (handed 2 c State.reset).now = none) ∧
      ((handed 2 c (siteAt noon .unplugged)).takenLevel .b c = some 2 ∧ (siteAt noon .unplugged).now ≠ none ∧
        ((siteAt noon .unplugged).bay 3).lastStatus.vehicle = .unplugged) ∧
      ((handed 2 c busy).takenLevel .b c = some 2 ∧ busy.now ≠ none ∧ (busy.bay 3).link = .online ∧
        (busy.bay 3).lastStatus.vehicle = .demanding ∧ (busy.bay 3).session ≠ none) ∧
      ((handed 2 (.tillVoucher .b 3 14 0 0 0 0) free).takenLevel .b (.tillVoucher .b 3 14 0 0 0 0) = some 2 ∧
        (free.bay 3).session = none ∧ (free.bay 3).reservedFor = none ∧ free.plan 14 = none) ∧
      ((handed 2 c (free.setPlan 15 (some ⟨0, 1⟩))).takenLevel .b c = some 2 ∧
        (free.setPlan 15 (some ⟨0, 1⟩)).plan 15 = some ⟨0, 1⟩ ∧ 1 < 2) ∧
      ((handed 2 c taken).takenLevel .b c = some 2 ∧ taken.plan 15 = some ⟨0, 2⟩ ∧ 2 ≤ (taken.page 0).useLevel ∧
        (taken.bay 3).session = none ∧ ∀ r : RecordId, (taken.record r).state ≠ .free) := by decide +kernel

theorem witness_DenyFrees :
    ((handed 2 (.deny .b 3 32) asked).takenLevel .b (.deny .b 3 32) = some 2 ∧ (3 : Byte).toNat = (3 : BayId).val ∧
        (32 : Byte).toNat = (31 : RecordId).val + 1 ∧ ((handed 2 (.deny .b 3 32) asked).record 31).state = .pending ∧
        ((handed 2 (.deny .b 3 32) asked).record 31).bay = 3) ∧
      ((handed 2 (.deny .b 15 1) asked).takenLevel .b (.deny .b 15 1) = some 2 ∧
        (15 : Byte).toNat = (15 : BayId).val ∧ (1 : Byte).toNat = (0 : RecordId).val + 1 ∧
        ¬ (((handed 2 (.deny .b 15 1) asked).record 0).state = .pending ∧
          ((handed 2 (.deny .b 15 1) asked).record 0).bay = 15)) ∧
      ((handed 2 (.deny .b 16 33) asked).takenLevel .b (.deny .b 16 33) = some 2 ∧ 15 < (16 : Byte).toNat ∧
        32 < (33 : Byte).toNat) := by decide +kernel

/-- Each of the three deadlines just reached, and 15 s before it. -/
theorem witness_ExpiriesFreeOrClose :
    let lost := { charging .suspended with resumeDeadline := some soon }
    let moves := { charging .transferring with transferDeadline := some soon }
    (soon.reaches soon = true ∧ noon.reaches soon = false) ∧
      ((siteAt soon .plugged).now = some soon ∧ (siteAt noon .plugged).now = some noon) ∧
      (((withLive asking (siteAt soon .plugged)).record 31).authDeadline = some soon ∧
        ((withLive asking (siteAt soon .plugged)).record 31).state = .pending) ∧
      (((withLive lost (siteAt soon .plugged)).record 31).resumeDeadline = some soon ∧
        ((withLive lost (siteAt soon .plugged)).record 31).state = .suspended) ∧
      (((withLive moves (siteAt soon .plugged)).record 31).transferDeadline = some soon ∧
        ((withLive moves (siteAt soon .plugged)).record 31).state = .transferring) := by decide +kernel

/-- Seven receipts leave room for an eighth, and eight leave none; a head that is TRANSFERRING and one that is not. -/
theorem witness_CloseEndsTheChain :
    (busy.ssm.waiting = [] ∧ (List.replicate 7 (receiptOf 1)).length < 8) ∧
      ¬ (busy.ssm.waiting = [] ∧ (List.replicate 8 (receiptOf 1)).length < 8) ∧
      (busy.record 31).state = .active ∧
      ((withLive { charging .transferring with transferTarget := some 15 } busy).record 31).transferTarget = some 15 :=
  by decide +kernel

theorem witness_RunningHeadsStopAndChangeClass :
    ((handed 2 (.stopSession .b 31) busy).takenLevel .b (.stopSession .b 31) = some 2 ∧
        (31 : Byte).toNat = (31 : RecordId).val ∧ ((handed 2 (.stopSession .b 31) busy).record 31).state = .active) ∧
      ((handed 2 (.stopSession .b 0) busy).takenLevel .b (.stopSession .b 0) = some 2 ∧
        ((handed 2 (.stopSession .b 0) busy).record 0).state = .free) ∧
      ((handed 2 (.stopSession .b 32) busy).takenLevel .b (.stopSession .b 32) = some 2 ∧ 31 < (32 : Byte).toNat) ∧
      ((handed 1 (.setClass .a 31 2) busy).takenLevel .a (.setClass .a 31 2) = some 1 ∧
        (2 : Byte).toNat = (2 : Fin 3).val ∧ ((handed 1 (.setClass .a 31 2) busy).record 31).state = .active) ∧
      ((handed 1 (.setClass .a 0 0) busy).takenLevel .a (.setClass .a 0 0) = some 1 ∧
        ((handed 1 (.setClass .a 0 0) busy).record 0).state = .free) ∧
      ((handed 1 (.setClass .a 32 3) busy).takenLevel .a (.setClass .a 32 3) = some 1 ∧ 31 < (32 : Byte).toNat ∧
        2 < (3 : Byte).toNat) := by decide +kernel
/-! ## Witnesses: chains -/

theorem witness_TransfersReserveAndCancel :
    let ok := handed 1 (.transfer .a 31 15) busy
    let bad := handed 1 (.transfer .a 32 16) busy
    let idle := handed 1 (.transfer .a 0 15) busy
    let full := handed 1 (.transfer .a 31 15) (busy.modRecord 31 fun g => { g with depth := 4 })
    let off := handed 1 (.transfer .a 31 15)
      (busy.setWorking { busy.settings with enabled := put busy.settings.enabled 15 false })
    let own := handed 1 (.transfer .a 31 3) busy
    (ok.takenLevel .a (.transfer .a 31 15) = some 1 ∧ (31 : Byte).toNat = (31 : RecordId).val ∧
        (15 : Byte).toNat = (15 : BayId).val ∧ (ok.record 31).state = .active ∧ (ok.record 31).depth < 4 ∧
        ok.settings.enabled[15] = true ∧ (ok.bay 15).session = none ∧ (ok.bay 15).reservedFor = none) ∧
      (bad.takenLevel .a (.transfer .a 32 16) = some 1 ∧ 31 < (32 : Byte).toNat ∧ 15 < (16 : Byte).toNat) ∧
      (idle.takenLevel .a (.transfer .a 0 15) = some 1 ∧ (idle.record 0).state = .free) ∧
      (full.takenLevel .a (.transfer .a 31 15) = some 1 ∧ (full.record 31).state = .active ∧
        4 ≤ (full.record 31).depth) ∧
      (off.takenLevel .a (.transfer .a 31 15) = some 1 ∧ (off.record 31).state = .active ∧ (off.record 31).depth < 4 ∧
        off.settings.enabled[15] = false) ∧
      (own.takenLevel .a (.transfer .a 31 3) = some 1 ∧ (own.record 31).state = .active ∧ (own.record 31).depth < 4 ∧
        own.settings.enabled[3] = true ∧ (own.bay 3).session ≠ none) := by decide +kernel

/-- The head of bay 3 on its way to bay 15. -/
def moving : State :=
  (withLive { charging .transferring with transferTarget := some 15, transferDeadline := some soon }
    (siteAt noon .unplugged)).modBay 15 fun e => { e with reservedFor := some 31 }

theorem witness_TransfersReserveAndCancel_cancel :
    let s := handed 1 (.cancelTransfer .a 31) moving
    (s.takenLevel .a (.cancelTransfer .a 31) = some 1 ∧ (31 : Byte).toNat = (31 : RecordId).val ∧
      (s.record 31).state = .transferring ∧ (s.record 31).transferTarget = some 15 ∧
      SuspensionReason.silent = (if (s.bay (s.record 31).bay).link = .absent then .unscheduled
        else if (s.bay (s.record 31).bay).link = .online ∧ (s.bay (s.record 31).bay).lastStatus.vehicle = .fault
          then .fault
        else .silent)) ∧
      ((handed 1 (.cancelTransfer .a 32) moving).takenLevel .a (.cancelTransfer .a 32) = some 1 ∧
        31 < (32 : Byte).toNat) ∧
      ((handed 1 (.cancelTransfer .a 0) moving).takenLevel .a (.cancelTransfer .a 0) = some 1 ∧
        ((handed 1 (.cancelTransfer .a 0) moving).record 0).state ≠ .transferring) := by decide +kernel

/-- Bay 15 is reserved for record 31 of bay 3: its own token, another token, and no record FREE. -/
theorem witness_ArrivalContinuesTheChain :
    let none_ := { moving with
      ssm := { moving.ssm with records := Vector.replicate 32 { charging .transferring with transferTarget := some 15 } } }
    ((moving.bay 15).reservedFor = some 31 ∧ (moving.bay 15).session = none ∧ (moving.record 31).bay = 3 ∧
        (report .plugged).token = (moving.record 31).token ∧ moving.freeRecord = some 0 ∧ (0 : RecordId) ≠ 31 ∧
        (3 : BayId) ≠ 15) ∧
      ((none_.bay 15).reservedFor = some 31 ∧ (none_.record 31).bay = 3 ∧ none_.freeRecord = none) ∧
      (¬ ((some 8 : Option Token) = (moving.record 31).token ∨
          moving.settings.tokenFreeTransfer = true ∧ (some 8 : Option Token) = none) ∧
        (moving.bay 15).foreignMark = false ∧
        ((moving.modBay 15 fun e => { e with foreignMark := true }).bay 15).foreignMark = true) ∧
      (report .fault).vehicle = .fault ∧ (report .unplugged).vehicle = .unplugged := by decide +kernel

/-- A head of depth 1 with a FREE record and with none; a head of depth 4 whose plan is present, and absent. -/
theorem witness_NinthTripleContinuesOrCloses :
    let none_ := { busy with ssm := { busy.ssm with records := Vector.replicate 32 (charging .active) } }
    let deep := busy.modRecord 31 fun g => { g with depth := 4 }
    let gone := deep.setPlan 15 none
    ((busy.record 31).bay = 3 ∧ busy.freeRecord = some 0 ∧ (0 : RecordId) ≠ 31 ∧ (busy.record 31).depth < 4 ∧
        (busy.record 31).energyCap = none ∧ (busy.record 31).costCap = none) ∧
      (none_.freeRecord = none ∧ (none_.record 31).depth < 4 ∧ (none_.record 31).bay = 3) ∧
      (4 ≤ (gone.record 31).depth ∧ (gone.record 31).plan.bind gone.plan = none) ∧
      (4 ≤ (deep.record 31).depth ∧ (deep.record 31).plan.bind deep.plan = some ⟨0, 2⟩ ∧
        (deep.endChain 31 .splitLimit false).freeRecord = some 0 ∧ (deep.record 31).energyCap = none ∧
        (deep.record 31).costCap = none) := by decide +kernel

/-! ## Witnesses: receipts -/

/-- Record 31 is receipted under number 1. -/
def receipted : State := busy.modRecord 31 fun _ => charging .receipted

theorem witness_ReceiptAckFreesTheChain :
    let s := handed 2 (.receiptAck .b 1) receipted
    s.takenLevel .b (.receiptAck .b 1) = some 2 ∧ s.receiptHeld 1 = some (receiptOf 1) ∧ s.ssm.waiting = [] ∧
      (s.chain (receiptOf 1).head).Nodup ∧
      (((s.chain (receiptOf 1).head).filter fun q => (s.record q).page = some 0).length = 1 ∧
        (s.page 0).state ≠ .retired) ∧
      ((s.modPage 0 fun _ => fullPage .retired 1).page 0).state = .retired ∧
      1 = ((s.modPage 0 fun _ => fullPage .retired 1).page 0).pins := by decide +kernel

/-- A chain of two members, records 0 and 31. -/
def twoMembers : State :=
  (receipted.modRecord 0 fun _ => { charging .linked with bay := 2, startTime := some noon }).modRecord 31 fun g =>
    { g with backLink := some 0, depth := 2, endReason := some .stopped, idleMs := 60000 }

theorem twoMembers_isChain : twoMembers.IsChain [0, 31] 31 := by
  refine ⟨by decide, rfl, fun root h => ?_, fun i a b h k => ?_⟩
  · cases h
    decide +kernel
  · match i with
    | 0 =>
      cases h
      cases k
      decide +kernel
    | i + 1 => simp at k

/-- The same with no segment and no idle time. -/
def noMembersFed : State := receipted.modRecord 31 fun g => { g with segments := [], metered := 0, endReason := some .lost }

theorem noMembersFed_isChain : noMembersFed.IsChain [31] 31 := by
  refine ⟨by decide, rfl, fun root h => ?_, fun i a b h k => ?_⟩
  · cases h
    decide +kernel
  · simp at k

/-- A chain of two members with segments and idle time, and one with neither. -/
theorem witness_ReceiptsAreBuiltFromTheChain :
    twoMembers.IsChain [0, 31] 31 ∧ noMembersFed.IsChain [31] 31 ∧
      ((twoMembers.record 0).page = some 0 ∧ (twoMembers.record 0).startSeq = some 1 ∧
        (twoMembers.record 31).plan = some 15 ∧ (twoMembers.record 31).endReason = some .stopped ∧
        60000 = (([0, 31] : List RecordId).map fun q => (twoMembers.record q).idleMs).sum ∧ 0 < 60000 ∧
        (∃ q ∈ ([0, 31] : List RecordId), (twoMembers.record q).segments ≠ []) ∧
        ∀ q ∈ ([0, 31] : List RecordId),
          segmentsTotal (twoMembers.record q).segments = 1000 * (twoMembers.record q).metered) ∧
      ((noMembersFed.record 31).page = some 0 ∧ (noMembersFed.record 31).startSeq = some 1 ∧
        (noMembersFed.record 31).plan = some 15 ∧ (noMembersFed.record 31).endReason = some .lost ∧
        0 = (([31] : List RecordId).map fun q => (noMembersFed.record q).idleMs).sum ∧
        (∀ q ∈ ([31] : List RecordId), (noMembersFed.record q).segments = []) ∧
        (noMembersFed.record 31).startTime = some noon ∧ (24 : Fin 48).val = noon.ms.val / 1800000) :=
  ⟨twoMembers_isChain, noMembersFed_isChain, by decide +kernel, by decide +kernel⟩

/-- The chain of two members waits second in the waiting-chain queue, and no record links back to its head. -/
theorem witness_ReadRequestsAnswer_chain :
    let s : State := { (twoMembers.modRecord 31 fun g => { g with state := .closed }) with
      ssm := { (twoMembers.modRecord 31 fun g => { g with state := .closed }).ssm with waiting := [5] ++ 31 :: [] } }
    (s.record 31).state = .closed ∧ (31 : RecordId) ∉ ([5] : List RecordId) ∧ (s.record 0).page = some 0 ∧
      (∀ q : RecordId, (s.record q).backLink ≠ some 31) ∧
      ∀ a : RecordId, (s.record a).backLink ≠ none → a = 31 := by decide +kernel

/-- Record 0 waits while the queue holds eight entries; number 9 is not held. -/
theorem witness_ReceiptRequestsWorkTheQueue :
    let closed := receipted.modRecord 0 fun _ => charging .closed
    let full := { closed with
      ssm := { closed.ssm with waiting := [0] }
      rcq := ⟨[1, 2, 3, 4, 5, 6, 7, 8].map receiptOf, 9⟩ }
    ((handed 2 (.receiptAck .b 1) full).takenLevel .b (.receiptAck .b 1) = some 2 ∧
        (handed 2 (.receiptAck .b 1) full).receiptHeld 1 = some (receiptOf 1) ∧
        (handed 2 (.receiptAck .b 1) full).ssm.waiting = 0 :: [] ∧
        (handed 2 (.receiptAck .b 1) full).rcq.entries.length ≤ 8 ∧
        (full.chain (receiptOf 1).head).Nodup ∧ (∀ q ∈ full.chain 0, q ∉ full.chain (receiptOf 1).head) ∧
        ((full.chain (receiptOf 1).head).filter fun q => (full.record q).page = some 0).length = 1 ∧
        (full.page 0).state ≠ .retired ∧
        ((full.modPage 0 fun _ => fullPage .retired 1).page 0).state = .retired ∧
        1 = ((full.modPage 0 fun _ => fullPage .retired 1).page 0).pins) ∧
      ((handed 2 (.receiptAck .b 9) full).takenLevel .b (.receiptAck .b 9) = some 2 ∧
        (handed 2 (.receiptAck .b 9) full).receiptHeld 9 = none) := by decide +kernel

theorem witness_ReceiptRequestsWorkTheQueue_reading :
    (handed 2 (.receiptGet .b 0) receipted).takenLevel .b (.receiptGet .b 0) = some 2 ∧
      ((handed 2 (.receiptGet .b 2) receipted).takenLevel .b (.receiptGet .b 2) = some 2 ∧
        (handed 2 (.receiptGet .b 2) receipted).receiptHeld 2 = none) ∧
      ((handed 2 (.receiptGet .b 1) receipted).takenLevel .b (.receiptGet .b 1) = some 2 ∧
        (handed 2 (.receiptGet .b 1) receipted).receiptHeld 1 = some (receiptOf 1)) ∧
      (handed 1 (.setReceiptBase .a 0) receipted).takenLevel .a (.setReceiptBase .a 0) = some 1 ∧
      ((handed 1 (.setReceiptBase .a 1) receipted).takenLevel .a (.setReceiptBase .a 1) = some 1 ∧
        (handed 1 (.setReceiptBase .a 1) receipted).rcq.entries ≠ []) ∧
      ((handed 1 (.setReceiptBase .a 1) State.reset).takenLevel .a (.setReceiptBase .a 1) = some 1 ∧
        (handed 1 (.setReceiptBase .a 1) State.reset).rcq.entries = [] ∧
        (handed 1 (.setReceiptBase .a 1) State.reset).ssm.waiting = []) := by decide +kernel

/-! ## Witnesses: tariffs -/

/-- Page 1 is staged by Port A, written whole. -/
def staged : State := (busy.modPage 1 fun _ => fullPage .staging 0).setStaging (some ⟨1, .a⟩)

/-- No page is FREE. -/
def noFreePage : State :=
  { busy with tfs := { busy.tfs with pages := Vector.replicate 12 (fullPage .retired 1) } }

/-- The PAGE_OPEN of the worked page, with a use level. -/
def opening (useLevel : Byte) : Instr := .pageOpen .a 0x5745454B444159 useLevel 1000 240 1 600

theorem witness_PageOpenAndDiscard :
    ((handed 1 (opening 3) busy).takenLevel .a (opening 3) = some 1 ∧ ¬ (3 : Byte).toNat ≤ 2) ∧
      ((2 : Byte).toNat ≤ 2 ∧ (1000 : Word16).toNat ≤ 1000 ∧ (240 : Byte).toNat ≤ 240 ∧ (1 : Byte).toNat ≤ 1) ∧
      ((handed 1 (opening 2) staged).takenLevel .a (opening 2) = some 1 ∧
        (handed 1 (opening 2) staged).tfs.staging ≠ none) ∧
      ((handed 1 (opening 2) noFreePage).takenLevel .a (opening 2) = some 1 ∧
        (handed 1 (opening 2) noFreePage).tfs.staging = none ∧
        ∀ q : PageId, ((handed 1 (opening 2) noFreePage).page q).state ≠ .free) ∧
      ((handed 1 (opening 2) busy).takenLevel .a (opening 2) = some 1 ∧
        (handed 1 (opening 2) busy).tfs.staging = none ∧ ((handed 1 (opening 2) busy).page 1).state = .free ∧
        ∀ q : PageId, q < 1 → ((handed 1 (opening 2) busy).page q).state ≠ .free) ∧
      ((handed 1 (.pageDiscard .b) busy).takenLevel .b (.pageDiscard .b) = some 1 ∧
        (handed 1 (.pageDiscard .b) busy).tfs.staging = none) ∧
      ((handed 1 (.pageDiscard .b) staged).takenLevel .b (.pageDiscard .b) = some 1 ∧
        (handed 1 (.pageDiscard .b) staged).tfs.staging = some ⟨1, .a⟩) := by decide +kernel

/-- The last slot alone, from the owner and from the other port, with no page staged, a run past slot 47 and a body of
the wrong length. -/
theorem witness_PageWriteWritesTheRun :
    let six : List Byte := [0, 1, 0, 2, 0, 3]
    ((handed 1 (.pageWrite .a 47 1 six) staged).takenLevel .a (.pageWrite .a 47 1 six) = some 1 ∧
        (handed 1 (.pageWrite .a 47 1 six) staged).tfs.staging = some ⟨1, .a⟩ ∧
        (1 ≤ (1 : Byte).toNat ∧ (1 : Byte).toNat ≤ 12 ∧ (47 : Byte).toNat + (1 : Byte).toNat ≤ 48) ∧
        six.length = 6 * (1 : Byte).toNat) ∧
      ((handed 1 (.pageWrite .b 47 1 six) staged).takenLevel .b (.pageWrite .b 47 1 six) = some 1 ∧
        (handed 1 (.pageWrite .b 47 1 six) staged).tfs.staging = some ⟨1, .a⟩) ∧
      ((handed 1 (.pageWrite .a 47 1 six) busy).takenLevel .a (.pageWrite .a 47 1 six) = some 1 ∧
        (handed 1 (.pageWrite .a 47 1 six) busy).tfs.staging = none) ∧
      ((handed 1 (.pageWrite .a 48 1 six) staged).takenLevel .a (.pageWrite .a 48 1 six) = some 1 ∧
        ¬ (48 : Byte).toNat + (1 : Byte).toNat ≤ 48) ∧
      ((handed 1 (.pageWrite .a 46 2 six) staged).takenLevel .a (.pageWrite .a 46 2 six) = some 1 ∧
        six.length ≠ 6 * (2 : Byte).toNat) := by decide +kernel

theorem witness_PagePublishMovesTheDirectory :
    let half := staged.modPage 1 fun g => { g with written := put g.written 0 false }
    let guarded := staged.setWorking { staged.settings with protectedPlans := 0x8000 }
    ((handed 1 (.pagePublish .a 0x8000 2) staged).takenLevel .a (.pagePublish .a 0x8000 2) = some 1 ∧
        (handed 1 (.pagePublish .a 0x8000 2) staged).tfs.staging = some ⟨1, .a⟩ ∧ (0x8000 : Word16) ≠ 0 ∧
        (2 : Byte).toNat ≤ 2 ∧ (handed 1 (.pagePublish .a 0x8000 2) staged).settings.protectedPlans &&& 0x8000 = 0 ∧
        ∀ i : Fin 48, ((handed 1 (.pagePublish .a 0x8000 2) staged).page 1).written[i.val] = true) ∧
      ((handed 1 (.pagePublish .a 1 0) busy).takenLevel .a (.pagePublish .a 1 0) = some 1 ∧
        (handed 1 (.pagePublish .a 1 0) busy).tfs.staging = none) ∧
      (handed 1 (.pagePublish .b 1 0) staged).takenLevel .b (.pagePublish .b 1 0) = some 1 ∧
      ((handed 1 (.pagePublish .a 0 3) staged).takenLevel .a (.pagePublish .a 0 3) = some 1 ∧ 2 < (3 : Byte).toNat) ∧
      ((handed 1 (.pagePublish .a 0x8000 2) guarded).takenLevel .a (.pagePublish .a 0x8000 2) = some 1 ∧
        (handed 1 (.pagePublish .a 0x8000 2) guarded).settings.protectedPlans &&& 0x8000 ≠ 0) ∧
      ((handed 1 (.pagePublish .a 1 0) half).takenLevel .a (.pagePublish .a 1 0) = some 1 ∧
        ((handed 1 (.pagePublish .a 1 0) half).page 1).written[0] = false ∧
        ∀ k : Fin 48, k < 0 → ((handed 1 (.pagePublish .a 1 0) half).page 1).written[k.val] = true) := by
  decide +kernel

theorem witness_PagePublishMovesTheDirectory_clear :
    let guarded := busy.setWorking { busy.settings with protectedPlans := 0x8000 }
    ((handed 1 (.planClear .a 16) busy).takenLevel .a (.planClear .a 16) = some 1 ∧ 15 < (16 : Byte).toNat) ∧
      ((handed 1 (.planClear .a 15) guarded).takenLevel .a (.planClear .a 15) = some 1 ∧
        (15 : Byte).toNat = (15 : PlanId).val ∧
        (handed 1 (.planClear .a 15) guarded).settings.protectedPlans.getLsbD 15 = true ∧ 0 < 1) ∧
      ((handed 0 (.planClear .a 15) guarded).takenLevel .a (.planClear .a 15) = some 0 ∧
        (handed 0 (.planClear .a 15) guarded).plan 15 = some ⟨0, 2⟩) ∧
      ((handed 1 (.planClear .a 14) busy).takenLevel .a (.planClear .a 14) = some 1 ∧
        (14 : Byte).toNat = (14 : PlanId).val ∧ (handed 1 (.planClear .a 14) busy).plan 14 = none) := by decide +kernel

/-- The worked figures: 1,799 s and 1,800 s against a grace of 20 minutes; and a chain of two members. -/
theorem witness_CostsAndFees :
    let page := { Page.cleared with idleRate := 50, idleGrace := 20, idleCap := some 600 }
    ((600 * 0 ≤ 1799 - 60 * page.idleGrace ∧ 1799 - 60 * page.idleGrace < 600 * (0 + 1)) ∧
      (600 * 1 ≤ 1800 - 60 * page.idleGrace ∧ 1800 - 60 * page.idleGrace < 600 * (1 + 1)) ∧
      page.idleCap = some 600 ∧ Page.cleared.idleCap = none) ∧
      twoMembers.IsChain [0, 31] 31 ∧ ([0, 31] : List RecordId).head? = some 0 ∧ (twoMembers.record 0).page = some 0 :=
  ⟨by decide, twoMembers_isChain, rfl, by decide +kernel⟩

/-! ## Witnesses: the bay link -/

theorem witness_StageSlotsReplacesTheMasks :
    ((handed 1 (.stageSlots .a 15 0x8000 3) busy).takenLevel .a (.stageSlots .a 15 0x8000 3) = some 1 ∧
        (15 : Byte).toNat = (15 : BayId).val) ∧
      ((handed 1 (.stageSlots .a 16 0 0) busy).takenLevel .a (.stageSlots .a 16 0 0) = some 1 ∧
        15 < (16 : Byte).toNat) := by decide +kernel

/-- The default slots clash nowhere; bay 0 on bay 15's downstream slot clashes there, and on bay 15's last upstream slot
there. -/
def defaultCopy : Vector Masks 16 := Vector.ofFn Masks.defaultSlots

theorem witness_CommitScheduleChecksTheSlots :
    let s := handed 1 (.commitSchedule .a) busy
    let down := put defaultCopy 0 ⟨0x8000, 1⟩
    let up := put defaultCopy 0 ⟨1, 0x80000000⟩
    s.takenLevel .a (.commitSchedule .a) = some 1 ∧
      (∀ b : BayId, defaultCopy[b.val] =
        if s.settings.enabled[b.val] = false then ⟨0, 0⟩
        else if s.blc.staged[b.val] = ⟨0, 0⟩ then ⟨1#16 <<< b.val, 3#32 <<< (2 * b.val)⟩
        else s.blc.staged[b.val]) ∧
      (∀ n : Fin 16, ∀ b c : BayId, defaultCopy[b.val].down.getLsbD n.val = true →
        defaultCopy[c.val].down.getLsbD n.val = true → b = c) ∧
      (∀ n : Fin 32, ∀ b c : BayId, defaultCopy[b.val].up.getLsbD n.val = true →
        defaultCopy[c.val].up.getLsbD n.val = true → b = c) ∧
      (down[0].down.getLsbD 15 = true ∧ down[15].down.getLsbD 15 = true) ∧
      (up[0].up.getLsbD 31 = true ∧ up[15].up.getLsbD 31 = true) := by decide +kernel

/-- Bay 0 heard nothing in a sweep that ends with its miss count at the threshold less 1, and bay 15 loses its slots. -/
theorem witness_SweepStartSteps :
    let heard := busy.modBay 0 fun e => { e with link := .online, missCount := 2 }
    let s : State := { heard with blc := { heard.blc with pendingCopy := some (put defaultCopy 15 ⟨0, 0⟩) } }
    let missed := fun b : BayId => s.blc.sweepBegun && s.scheduled b && !s.blc.heard[b.val]
    let count := fun b : BayId => if missed b then min 255 ((s.bay b).missCount + 1) else (s.bay b).missCount
    (allBays.filter fun b => missed b = true ∧ (s.bay b).link = .online ∧ s.settings.silentThreshold ≤ count b) = [0] ∧
      (allBays.filter fun b => s.scheduled b = true ∧ (put defaultCopy 15 ⟨0, 0⟩)[b.val].scheduled = false) = [15] := by
  decide +kernel

/-- Bay 15 owns slot 15 alone; with its mask empty no bay owns it. -/
theorem witness_GrantFrameFollowsTheTables :
    busy.OwnsDown 15 15 ∧
      (∀ b : BayId, (({ busy with blc := { busy.blc with active := put busy.blc.active 15 ⟨0, 0⟩ } } :
        State).activeMasks b).down.getLsbD 15 = false) ∧
      ((busy.bay 3).link = .online ∧ busy.liveIn 3 .active = true ∧ (busy.bay 3).lastStatus.vehicle = .demanding) := by
  unfold State.OwnsDown
  decide +kernel

theorem witness_FramesAreHeard :
    (0x7E : Byte) ∉ [(0x81 : Byte), 0x7F] ∧
      (∃ body high low, statusFrame .fault 0xFFFF 9 (some 7) = 0x7E :: 0x81 :: 0x2D :: (body ++ [high, low]) ∧
        (high + 1, low) ≠ (high, low)) ∧
      ∃ body high low, meterFrame 0xFFFFFFFF 0x80000000 = 0x7E :: 0x81 :: 0x33 :: (body ++ [high, low]) ∧
        (high + 1, low) ≠ (high, low) :=
  ⟨by decide,
    ⟨((statusFrame .fault 0xFFFF 9 (some 7)).drop 3).take 21, (statusFrame .fault 0xFFFF 9 (some 7))[24],
      (statusFrame .fault 0xFFFF 9 (some 7))[25], by decide +kernel⟩,
    ⟨((meterFrame 0xFFFFFFFF 0x80000000).drop 3).take 8, (meterFrame 0xFFFFFFFF 0x80000000)[11],
      (meterFrame 0xFFFFFFFF 0x80000000)[12], by decide +kernel⟩⟩

/-- Bay 15, scheduled and not; a DEMANDING report of 0 dA, one of 59 and one of 60 dA. -/
theorem witness_StatusStoresTheReport :
    let off := { busy with blc := { busy.blc with active := put busy.blc.active 15 ⟨0, 0xC0000000⟩ } }
    (busy.OwnsUp 31 15 ∧ busy.scheduled 15 = true) ∧ (off.OwnsUp 31 15 ∧ off.scheduled 15 = false) ∧
      upstream (statusFrame .demanding 0 0 none) = .status false ⟨.demanding, 0, 0, none⟩ ∧
      effectiveReport 320 ⟨.demanding, 0, 0, none⟩ = ⟨.plugged, 0, 0, none⟩ ∧
      effectiveReport 320 ⟨.demanding, 59, 0, none⟩ = ⟨.demanding, 60, 0, none⟩ ∧
      effectiveReport 320 ⟨.demanding, 60, 0, none⟩ = ⟨.demanding, 60, 0, none⟩ := by
  unfold State.OwnsUp
  decide +kernel

/-- Bay 3 with a vehicle and no record; the same with every record taken; a report that asks, FAULT and UNPLUGGED. -/
theorem witness_ReportsRaiseRequests :
    let s := siteAt noon .unplugged
    let none_ := { s with ssm := { s.ssm with records := Vector.replicate 32 (charging .receipted) } }
    ((s.bay 3).session = none ∧ (s.bay 3).reservedFor = none ∧ (report .plugged).vehicle = .plugged ∧
        (report .plugged).token ≠ none ∧ s.ssm.endedLatch[3] = false ∧ s.now ≠ none ∧ s.freeRecord = some 0) ∧
      none_.freeRecord = none ∧ (report .fault).vehicle = .fault ∧ (report .unplugged).vehicle = .unplugged := by
  decide +kernel

/-- A live record in each state; an ACTIVE one after a PLUGGED report with no cap reached, and one whose energy cap of
1 Wh stands reached. -/
theorem witness_ReportsMoveTheLiveRecord :
    let s := fun g => withLive g (siteAt soon .plugged)
    let capped := { charging .active with energyCap := some 1 }
    ((asked.bay 3).session = some 31 ∧ (asked.bay 3).reservedFor = none ∧ (asked.record 31).bay = 3 ∧
        (asked.record 31).state = .pending) ∧
      (((s (charging .active)).record 31).state = .active ∧ 1 ≤ ((s (charging .active)).record 31).metered ∧
        (s (charging .active)).now = some soon ∧ (report .plugged).vehicle = .plugged ∧
        (report .fault).vehicle ≠ .plugged ∧ ¬ (s (charging .active)).AtCap 31) ∧
      ((s capped).AtCap 31 ∧ ((s capped).record 31).state = .active) ∧
      (((s { charging .suspended with suspension := some .silent }).record 31).state = .suspended ∧
        (report .demanding).token = ((s (charging .suspended)).record 31).token) ∧
      ((s (charging .transferring)).record 31).state = .transferring := by
  simp only [State.atCap_iff]
  decide +kernel

theorem witness_LossesMoveTheLiveRecord :
    ((busy.bay 3).session = some 31 ∧ (busy.bay 3).reservedFor = none ∧ (busy.record 31).bay = 3 ∧
        (busy.record 31).state = .active) ∧
      ((asked.bay 3).session = some 31 ∧ (asked.record 31).state = .pending) ∧
      (moving.bay 15).reservedFor ≠ none ∧ (busy.bay 0).session = none := by decide +kernel

/-- Bay 3 with a last counter of 1,000: differences of 100,000 and 100,001. -/
theorem witness_MeterReadsTheCounter :
    busy.OwnsUp 7 3 ∧ upstream (meterFrame 101000 0) = .meter false ⟨101000, 0⟩ ∧ busy.scheduled 3 = true ∧
      (busy.bay 3).lastCounter = some 1000 ∧ ((101000 : Word32) - 1000).toNat ≤ 100000 ∧
      100000 < ((101001 : Word32) - 1000).toNat ∧ (busy.bay 3).session = some 31 ∧
      (busy.record 31).state = .active ∧ (busy.bay 15).session = none := by
  unfold State.OwnsUp
  decide +kernel

/-- A delta of 1 Wh to a record with the segment of the present triple, without a cap and with one of 2 Wh, which it
reaches; eight segments of another triple; a metered figure of 2^32 − 1. -/
theorem witness_MeterAccountsTheDelta :
    let capped := busy.modRecord 31 fun g => { g with energyCap := some 2 }
    let accounted := fun s : State => s.modRecord 31 fun g =>
      { g with
        meterLast := some 1001
        metered := 2
        segments := [⟨⟨1800, 2900, 3900⟩, some noon, 0 + 1 * 0, 0 + 1 * 0, 1000 + 1 * 1000⟩] }
    let other : List Segment := List.replicate 8 ⟨⟨0, 0, 4000⟩, none, 0, 0, 0⟩
    ((busy.record 31).page = some 0 ∧ busy.now = some noon ∧ (busy.record 31).metered + 1 < 2 ^ 32 ∧
        (busy.record 31).segments = [] ++ ⟨⟨1800, 2900, 3900⟩, some noon, 0, 0, 1000⟩ :: [] ∧
        (busy.page 0).slots[noon.ms.val / 1800000] = ⟨1800, 2900, 3900⟩ ∧ ¬ (accounted busy).AtCap 31) ∧
      ((capped.record 31).metered + 1 = 2 ∧ (accounted capped).AtCap 31) ∧
      ((∀ h ∈ other, h.triple ≠ ⟨1800, 2900, 3900⟩) ∧ 8 ≤ other.length) ∧ 2 ^ 32 ≤ 4294967295 + 1 := by
  simp only [State.atCap_iff]
  decide +kernel
/-! ## Witnesses: the canopy line -/

/-- A POLL of period 0, with and without a grant set, and after the last period. -/
theorem witness_PollSendsTheTargets :
    let past := State.reset.modClc fun c => { c with periodIndex := 19, polled := true }
    (0 = (if busy.clc.polled then busy.clc.periodIndex + 1 else busy.clc.periodIndex) ∧ busy.ale.current = some idleSet ∧
        0 < busy.clc.periodsTaken) ∧
      State.reset.ale.current = none ∧
      (20 = (if past.clc.polled then past.clc.periodIndex + 1 else past.clc.periodIndex) ∧
        past.clc.periodsTaken ≤ 20) := by decide +kernel

/-- A reply of a canopy converter, of the battery converter and of the grid meter, with two other CRC bytes. -/
theorem witness_RepliesAreJudged :
    (0x7E : Byte) ∉ [(0x81 : Byte), 0x7F] ∧
      (∃ rest high low, sampleFrame 7 4 0xFFFFFFFF = 0x7E :: 0x81 :: 0xD2 :: rest ++ [high, low] ∧
        (high + 1, low) ≠ (high, low)) ∧
      (∃ rest high low, batteryFrame 4 1 2 3 4 = 0x7E :: 0x81 :: 0xE1 :: rest ++ [high, low]) ∧
      (∃ rest high low, sampleFrame 9 4 0xFFFFFFFF = 0x7E :: 0x81 :: 0x66 :: rest ++ [high, low]) ∧
      (4 : Byte).toNat = 4 ∧ (5 : Byte).toNat ≠ 4 :=
  ⟨by decide,
    ⟨((sampleFrame 7 4 0xFFFFFFFF).drop 3).take 6, (sampleFrame 7 4 0xFFFFFFFF)[9], (sampleFrame 7 4 0xFFFFFFFF)[10],
      by decide +kernel⟩,
    ⟨((batteryFrame 4 1 2 3 4).drop 3).take 16, (batteryFrame 4 1 2 3 4)[19], (batteryFrame 4 1 2 3 4)[20],
      by decide +kernel⟩,
    ⟨((sampleFrame 9 4 0xFFFFFFFF).drop 3).take 6, (sampleFrame 9 4 0xFFFFFFFF)[9], (sampleFrame 9 4 0xFFFFFFFF)[10],
      by decide +kernel⟩, by decide, by decide⟩

/-- A reply position that ends on the first byte of a frame is discarded, and its counter rises. -/
theorem test_reply_cut_to_its_first_byte :
    lineReply 0 4 [0x00, 0x7E] = .discarded ∧ upstream [0x00, 0x7E] = .discarded := by decide

/-- Replies within the window at its first period and outside it, a reply of the wrong period, and a silence. -/
theorem witness_RepliesEnterTheWindow :
    let s := busy.modClc fun c => { c with periodIndex := 4 }
    (s.clc.windowFrom ≤ s.clc.periodIndex ∧ s.clc.periodIndex ≤ s.clc.windowTo) ∧
      ¬ (busy.clc.windowFrom ≤ busy.clc.periodIndex ∧ busy.clc.periodIndex ≤ busy.clc.windowTo) ∧
      lineReply 7 4 (sampleFrame 7 4 0x7FFFFFFF) = .valid false ⟨2147483647, 0, 0, 0⟩ ∧
      lineReply 8 4 (batteryFrame 4 0x80000000 1001 2000001 0) = .valid false ⟨-2147483648, 1001, 2000001, 0⟩ ∧
      lineReply 9 4 (sampleFrame 9 4 0xFFFFFFFF) = .valid false ⟨-1, 0, 0, 0⟩ ∧
      lineReply 9 4 (sampleFrame 9 5 0) = .discarded ∧ lineReply 9 4 [] = .silent ∧
      (busy.OwnsUp 31 15 ∧ upstream [0x7E, 0x81, 0x0E] = .discarded) := by
  unfold State.OwnsUp
  decide +kernel

/-- A node heard, one with a cycle of hold left, and one with none. -/
theorem witness_CycleEndPublishesTheSet :
    let s := (State.reset.modNode 9 fun n => { n with windowSum := -96010, windowCount := 16 }).modNode 8 fun n =>
      { n with standing := .held, holdCount := 1, mean := 3999 }
    s.settings.holdCycles = 3 ∧ 1 ≤ (s.node 9).windowCount ∧
      ((s.node 8).windowCount = 0 ∧ 1 ≤ (s.node 8).holdCount) ∧
      (s.node 0).windowCount = 0 ∧ (s.node 0).holdCount = 0 := by decide +kernel

/-! ## Witnesses: the site budget -/

/-- The part under a curtailment with this much time left. -/
def curtailed (ms : Nat) : State := busy.setOverlay (some ⟨2000000, ms⟩)

theorem witness_CurtailmentComesAndGoes :
    (handed 1 (.curtail .a 2000001 86400) busy).takenLevel .a (.curtail .a 2000001 86400) = some 1 ∧
      (1 ≤ (86400 : Word32).toNat ∧ (86400 : Word32).toNat ≤ 86400) ∧
      ((handed 1 (.curtail .a 0 86401) busy).takenLevel .a (.curtail .a 0 86401) = some 1 ∧
        86400 < (86401 : Word32).toNat) ∧
      ((handed 1 (.curtailEnd .a) busy).takenLevel .a (.curtailEnd .a) = some 1 ∧
        (handed 1 (.curtailEnd .a) busy).ale.overlay = none) ∧
      ((handed 1 (.curtailEnd .a) (curtailed 1)).takenLevel .a (.curtailEnd .a) = some 1 ∧
        (handed 1 (.curtailEnd .a) (curtailed 1)).ale.overlay ≠ none) ∧
      ((curtailed 0).ale.overlay = some ⟨2000000, 0⟩ ∧ (curtailed 1).ale.overlay = some ⟨2000000, 1⟩ ∧ 0 < 1) := by
  decide +kernel

/-- The busy afternoon's set, and the same with the meter lost. -/
theorem witness_AllocationFormsTheGrantSet :
    State.reset.ale.inbox = [] ∧
      ({ afternoonBays with ale := { afternoonBays.ale with inbox := [afternoonSet] } } : State).ale.inbox =
        afternoonSet :: [] ∧
      afternoonSet.meterLost = false ∧ ({ afternoonSet with meterLost := true } : MeasurementSet).meterLost = true :=
  ⟨rfl, rfl, rfl, rfl⟩

/-- The busy afternoon: bay 2 is eligible and bay 0 is not; the guard without a target; an export limit above and
below the export planned; the meter lost with a grant set and without one. -/
theorem witness_TermsFollowTheSite :
    let lost : MeasurementSet := { afternoonSet with meterLost := true }
    afternoonBays.eligible 2 = some ⟨2, 0, 50, 160, 69⟩ ∧ afternoonBays.settings.demandTarget = 0 ∧
      ((clockedAt noon).now = some noon ∧ (clockedAt noon).ivm.current = some noonInterval ∧
        1 ≤ { Settings.defaults with demandTarget := 1 }.demandTarget) ∧
      (afternoonSet.meterLost = false ∧ afternoonBays.settings.exportLimit = none) ∧
      (noonSet.meterLost = false ∧ noonBays.settings.exportLimit = some 5000 ∧
        5000 < (noonBays.newGrantSet noonSet).exportPlanned) ∧
      (lost.meterLost = true ∧ busy.ale.current = some idleSet ∧ State.reset.ale.current = none) := by decide +kernel

/-- A record that the last allocation saw and one that it did not, and the shortfall of a limit of 0. -/
theorem witness_AllocationTellsItsOutcome :
    let short : State := { afternoonBays.setWorking { afternoonBays.settings with importLimit := 0 } with
      ale := { afternoonBays.ale with inbox := [afternoonSet] } }
    let g := short.newGrantSet afternoonSet
    ((afternoonBays.record 0).state = .active ∧ (afternoonBays.bay 2).recordedStart = (afternoonBays.record 0).startSeq ∧
        (afternoonBays.bay 2).recordedStart ≠ none) ∧
      ((busy.record 31).state = .active ∧ (busy.bay 3).recordedStart = none ∧
        (busy.bay 3).lastStatus.vehicle = .demanding) ∧
      (short.ale.inbox = afternoonSet :: [] ∧ short.ale.importLatch = false ∧
        g.headroom + afternoonSet.solar + g.maxDischarge < 0) ∧
      0 ≤ (afternoonBays.newGrantSet afternoonSet).headroom + afternoonSet.solar +
        (afternoonBays.newGrantSet afternoonSet).maxDischarge := by decide +kernel

/-- The busy afternoon with bay 11 listed: nothing is listed twice, and each kind of entry stands. -/
theorem witness_AdmissionFollowsTheOrder :
    let s := { afternoonBays with ale := { afternoonBays.ale with shedStack := [⟨11, 4811⟩] } }
    ((s.ale.shedStack ++ s.ale.unlisted).map (·.bay)).Nodup ∧
      (s.bay 11).recordedStart = some 53 ∧ (s.eligible 11).map (·.seq) = some 53 ∧
      (60 ≤ 60 ∧ (([⟨4, 1, 1, 200, 69⟩] : List Eligible).map fun x => x.weight * min x.req 60).sum ≤ 4140 ∧
        4140 < (([⟨4, 1, 1, 200, 69⟩] : List Eligible).map fun x => x.weight * min x.req 61).sum) ∧
      (([⟨4, 1, 1, 200, 69⟩] : List Eligible).map fun x => x.weight * min x.req 320).sum ≤ 13800 := by decide +kernel

/-- Depth 1 under each policy. -/
theorem witness_ShedStackIsUpdated :
    let s := afternoonBays.setWorking { afternoonBays.settings with shedStackDepth := 1, overflowPolicy := .freeze }
    1 ≤ s.settings.shedStackDepth ∧ s.settings.overflowPolicy = .freeze ∧
      afternoonBays.settings.overflowPolicy = .wrap ∧ s.ale.unlisted = [] ∧
      ({ s with ale := { s.ale with inbox := [afternoonSet] } } : State).ale.inbox = afternoonSet :: [] := by
  decide +kernel

/-- Depth 1 and a pool of 0: five bays are newly shed in admission order 2, 5, 6, 9, 11. WRAP keeps the first of them on
the stack and FREEZE the last. -/
theorem test_overflow_of_the_shed_stack :
    let shed := fun policy => (afternoonBays.setWorking
      { afternoonBays.settings with shedStackDepth := 1, overflowPolicy := policy }).newShedding
        { afternoonSet with meterLost := true }
    ((shed .wrap).stack, (shed .wrap).unlisted.map (·.bay), (shed .wrap).overflow) = ([⟨2, 4812⟩], [5, 6, 9, 11], 4) ∧
      ((shed .freeze).stack, (shed .freeze).unlisted.map (·.bay), (shed .freeze).overflow) =
        ([⟨11, 4812⟩], [2, 5, 6, 9], 4) := by decide +kernel

theorem witness_GrantsStayWithinThePools :
    afternoonBays.eligible 0 = none ∧ afternoonBays.eligible 2 = some ⟨2, 0, 50, 160, 69⟩ ∧
      (afternoonBays.newGrantSet afternoonSet).grants[2] = 160 ∧ 60 ≤ 160 := by decide +kernel

/-! ## Witnesses: settlement intervals -/

theorem witness_MeasurementSetsAreIntegrated :
    let timed := { afternoonSet with endTime := some noon }
    let s := { busy with ivm := { busy.ivm with inbox := [timed] } }
    busy.ivm.inbox = [] ∧ s.ivm.inbox = timed :: [] ∧ timed.endTime ≠ none ∧ afternoonSet.endTime = none ∧
      s.ivm.current = some noonInterval ∧ noonInterval.cycles + 1 < 2 ^ 32 ∧ noonInterval.lostCycles + 1 < 2 ^ 32 ∧
      ((allBays.filter fun b => (s.bay b).link = .online).map fun b => (s.bay b).lastPower).sum = 0 := by
  decide +kernel

/-- A record of the pending list. -/
def pendingRecord (n : Word32) : IntervalRecord :=
  ⟨n, noon, noon, Six.zero, 0, 0, 0, 0, false, false, false, false⟩

/-- The clock at the interval's end and before it; SET_CLOCK at the last ms of a day and past it, on an unset clock and
on a set one; a pending list of one record and of two. -/
theorem witness_IntervalsCloseWithoutLoss :
    let ended := siteAt noonInterval.stop .plugged
    let set := handed 1 (.setClock .a 0xFFFF 86399999) busy
    let unset := handed 1 (.setClock .a 0xFFFF 86399999) State.reset
    (ended.ivm.current = some noonInterval ∧ ended.now = some noonInterval.stop ∧
        noonInterval.stop.reaches noonInterval.stop = true) ∧
      (busy.ivm.current = some noonInterval ∧ busy.now = some noon ∧ noon.reaches noonInterval.stop = false) ∧
      ((handed 1 (.setClock .a 0 86400000) busy).takenLevel .a (.setClock .a 0 86400000) = some 1 ∧
        86399999 < (86400000 : Word32).toNat) ∧
      (unset.takenLevel .a (.setClock .a 0xFFFF 86399999) = some 1 ∧ unset.now = none) ∧
      (set.takenLevel .a (.setClock .a 0xFFFF 86399999) = some 1 ∧ set.ivm.current = some noonInterval ∧
        set.now = some noon) ∧
      ((⟨65535, 86399999⟩ : SiteTime).day.val = (0xFFFF : Word16).toNat ∧
        (⟨65535, 86399999⟩ : SiteTime).ms.val = (86399999 : Word32).toNat) ∧
      [pendingRecord 1].length ≤ 1 ∧
      (busy.setPendingRecords [pendingRecord 1, pendingRecord 2]).ivm.pendingRecords =
        [pendingRecord 1, pendingRecord 2] := by decide +kernel

theorem witness_MeasurementSetsAreIntegrated_acknowledged :
    let two := busy.setPendingRecords [pendingRecord 1, pendingRecord 2]
    ((handed 1 (.intervalAck .a 1) busy).takenLevel .a (.intervalAck .a 1) = some 1 ∧
        (handed 1 (.intervalAck .a 1) busy).ivm.pendingRecords = []) ∧
      ((handed 1 (.intervalAck .a 1) two).takenLevel .a (.intervalAck .a 1) = some 1 ∧
        (handed 1 (.intervalAck .a 1) two).ivm.pendingRecords = pendingRecord 1 :: [pendingRecord 2] ∧
        (pendingRecord 1).number = 1) ∧
      ((handed 1 (.intervalAck .a 2) two).takenLevel .a (.intervalAck .a 2) = some 1 ∧ (pendingRecord 1).number ≠ 2) := by
  decide +kernel

/-! ## Witnesses: settings, saves and resets -/

/-- No setting has id 0x0057; a choice of 2 is outside its table; ceiling B stands at 2, so ceiling A may not rise; a
sweep period of 199 is brought to 200 and one of 200 is taken; the rows of a bay and of a node. -/
theorem witness_SetSettingTakesTheValue :
    ((handed 0 (.setSetting .a 0x57 0) busy).takenLevel .a (.setSetting .a 0x57 0) = some 0 ∧ settingOf 0x57 = none) ∧
      ((handed 0 (.setSetting .a 0x5B 2) busy).takenLevel .a (.setSetting .a 0x5B 2) = some 0 ∧
        settingOf 0x5B = some .overflowPolicy ∧ SettingId.overflowPolicy.taken 2 = none) ∧
      ((handed 0 (.setSetting .a 0x78 1) busy).takenLevel .a (.setSetting .a 0x78 1) = some 0 ∧
        settingOf 0x78 = some .ceilingA ∧ SettingId.ceilingA.taken 1 = some 1 ∧ 0 < 1 ∧ 0 < busy.settings.ceilingB) ∧
      ((handed 0 (.setSetting .a 1 199) busy).takenLevel .a (.setSetting .a 1 199) = some 0 ∧
        settingOf 1 = some .sweepPeriod ∧ SettingId.sweepPeriod.taken 199 = some 200 ∧
        SettingId.sweepPeriod.taken 200 = some 200) ∧
      ((0x4F : Word16).toNat = 0x48 + (7 : Fin 8).val ∧ (0x3F : Word16).toNat = 0x30 + (15 : BayId).val ∧
        SettingId.periodLength.taken 549 = some 500 ∧ SettingId.periodLength.taken 99 = some 50) := by decide +kernel

theorem witness_ResetsStartThePart_saves :
    let saving := { handed 0 (.saveSettings .b) busy with
      sst := { busy.sst with save := .saving Settings.defaults .a } }
    let waiting := { handed 0 (.saveSettings .a) busy with
      sst := { busy.sst with save := .saving Settings.defaults .a } }.modPort .a fun c => { c with service := .awaiting }
    ((handed 0 (.saveSettings .a) busy).takenLevel .a (.saveSettings .a) = some 0 ∧
        (handed 0 (.saveSettings .a) busy).sst.save = .idle) ∧
      (saving.takenLevel .b (.saveSettings .b) = some 0 ∧ saving.sst.save = .saving Settings.defaults .a) ∧
      (waiting.sst.save = .saving Settings.defaults .a ∧ (waiting.port .a).service = .awaiting) := by decide +kernel

/-- A RESTART with no save in flight and with one; an invalid image and a valid one, whose sweep period stands in its
range. -/
theorem witness_ResetsStartThePart :
    let saving := { handed 0 (.restart .b) busy with sst := { busy.sst with save := .saving Settings.defaults .a } }
    let kept := { busy with sst := { busy.sst with image := ⟨true, Settings.defaults⟩ } }
    ((handed 0 (.restart .a) busy).takenLevel .a (.restart .a) = some 0 ∧
        (handed 0 (.restart .a) busy).sst.save = .idle) ∧
      (saving.takenLevel .b (.restart .b) = some 0 ∧ saving.sst.save = .saving Settings.defaults .a) ∧
      busy.sst.image.valid = false ∧ kept.sst.image.valid = true ∧
      SettingId.sweepPeriod.taken (SettingId.sweepPeriod.value kept.sst.image.contents) = some 500 := by decide +kernel

/-- A first power-on ends in the reset state. -/
theorem test_power_on_ends_in_reset :
    startUp .power ⟨false, Settings.defaults⟩ [] = State.reset := by decide +kernel

/-! ## Witnesses: the message ports -/

/-- A port context with this many requests and messages. -/
def queued (requests messages : Nat) : PortContext :=
  { PortContext.fresh with
    receiveQueue := List.replicate requests ⟨2, 0x1234, 0x01, []⟩
    transmitQueue := List.replicate messages ⟨0, 0, 0x40, false, .notice none (.start .power true)⟩ }

/-- A port context in which the receive queue is full serves for each clause: noise, a body of the greatest length,
receive queues of 3 and of 4, lengths of 1,152 and 1,153, and a CRC of 0 against the true one. -/
theorem witness_ReceiversFrameMessages :
    let tail := (requestMessage 2 0x1234 0x01 []).drop 1
    ((queued 3 0).receiver = .hunting ∧ (0xC3 : Byte) ∉ [(0x00 : Byte), 0xC4] ∧
        (List.replicate 1152 (0 : Byte)).length ≤ 1152 ∧ (queued 3 0).receiveQueue.length < 4) ∧
      ((queued 4 13).receiver = .hunting ∧ 4 ≤ (queued 4 13).receiveQueue.length ∧
        (queued 4 13).transmitQueue.length < 14) ∧
      ((queued 4 14).receiver = .hunting ∧ 4 ≤ (queued 4 14).receiveQueue.length ∧
        14 ≤ (queued 4 14).transmitQueue.length) ∧ (1 : Byte) ≠ 0 ∧
      (1152 < (4 : Byte).toNat * 256 + (129 : Byte).toNat ∧ (4 : Byte) ≠ 0xC3 ∧ (129 : Byte) ≠ 0xC3) ∧
      (envelope 2 0x1234 0x01 0 [] = 0xC3 :: tail ∧
        (0 : Byte).toNat * 256 + (0 : Byte).toNat ≠ (crc16 (tail.take (([] : List Byte).length + 7))).toNat) ∧
      (envelope 2 0x1234 0x01 0 [] = 0xC3 :: tail ∧ 0 < tail.length ∧ tail.length - 1 < tail.length) ∧
      exec (.requestArrival .a [0xC3, 0]) State.reset = .next (State.reset.modPort .a (·.take [0xC3, 0])) :=
  ⟨⟨rfl, by decide, Nat.le_of_eq List.length_replicate, by decide⟩, by decide, by decide, by decide, by decide,
    by decide +kernel, by decide +kernel, rfl⟩

/-- A request that arrives in two parts is queued with the second, and the receiver holds the first meanwhile. -/
theorem test_request_in_two_parts :
    let message := requestMessage 2 0x1234 0x01 []
    let first := PortContext.fresh.take (message.take 4)
    (first.receiver, (first.take (message.drop 4)).receiveQueue) =
      (.inMessage ((message.take 4).drop 1), [⟨2, 0x1234, 0x01, []⟩]) := by decide +kernel

/-- A request hidden in a damaged message is found again: the error is counted and the request is queued. -/
theorem test_request_hidden_in_a_damaged_message :
    let hidden := requestMessage 0 7 0x01 []
    let port := (PortContext.fresh.take (0xC3 :: (([0, 11, 0, 0, 0, 1, 0] ++ 0 :: hidden) ++ [0, 0])))
    (port.errorCount, port.receiveQueue, port.receiver) = (1, [⟨0, 7, 0x01, []⟩], .hunting) := by decide +kernel

/-- A queue of 10 messages and one of 11; roles 2 and 3; an unknown kind; SAVE_SETTINGS at level 2; a GET_BAY with no
body. -/
theorem witness_ServiceStartChecksInOrder :
    let q := fun role kind body => (⟨role, 0x1234, kind, body⟩ : Request)
    ((queued 1 10).service = .unchecked ∧ (queued 1 10).receiveQueue = q 2 0x01 [] :: [] ∧
        2 = max ((State.reset.settings).ceiling .b) (q 2 0x01 []).role.toNat ∧ (queued 1 10).transmitQueue.length < 11 ∧
        (q 2 0x01 []).role.toNat ≤ 2 ∧ requestKind (q 2 0x01 []).kind = some .getStatus ∧
        2 ≤ (requestRow .getStatus).level) ∧
      (11 ≤ (queued 1 11).transmitQueue.length ∧ (queued 1 11).transmitQueue.length < 16) ∧
      2 < (q 3 0x01 []).role.toNat ∧ requestKind (q 0 0x07 []).kind = none ∧
      (requestKind (q 2 0x39 []).kind = some .saveSettings ∧ (requestRow .saveSettings).level < 2) ∧
      (requestKind (q 0 0x02 []).kind = some .getBay ∧ (q 0 0x02 []).body.length < (requestRow .getBay).least) ∧
      requestOf .b 0x01 [] = some (.getStatus .b) := by decide

/-- Queues of none, one, two, eleven and twelve messages; a request with messages queued and with none. -/
theorem witness_QueuesAreSentInOrder :
    (queued 0 0).transmitQueue = [] ∧ (queued 0 1).transmitQueue = [⟨0, 0, 0x40, false, .notice none (.start .power true)⟩] ∧
      (∃ m next, (queued 0 2).transmitQueue = m :: next :: []) ∧
      (1 ≤ (queued 0 11).transmitQueue.length ∧ (queued 0 11).transmitQueue.length < 12) ∧
      12 ≤ (queued 0 12).transmitQueue.length ∧
      ((queued 1 1).receiveQueue = ⟨2, 0x1234, 0x01, []⟩ :: [] ∧ (queued 1 1).transmitQueue ≠ []) ∧
      ((queued 1 0).receiveQueue = ⟨2, 0x1234, 0x01, []⟩ :: [] ∧ (queued 1 0).transmitQueue = []) :=
  ⟨rfl, rfl, ⟨_, _, rfl⟩, by decide, by decide, by decide, by decide⟩

/-- A body of the greatest length, each message whose bytes are laid out, and a receipt with a token, an idle line and a
line at the greatest figures. -/
theorem witness_MessagesAreLaidOut :
    let receipt : Receipt := { receiptOf 1 with
      token := some 7, idleLine := some ⟨4294967295, 4294967295⟩, records := 4, totalMWh := 2 ^ 48 - 1
      totalCents := 2 ^ 48 - 1
      lines := [⟨3, some noon, ⟨65535, 65535, 65535⟩, 2 ^ 42 - 1, 2 ^ 42 - 1, 2 ^ 42 - 1, 4294967295⟩] }
    (List.replicate 1152 (0 : Byte)).length ≤ 1152 ∧
      (∃ bytes, Body.bytes (.reply ⟨.busy, 4, 1, 2, .nothing⟩) = some bytes) ∧
      (∃ bytes, Body.bytes (.reply ⟨.ok, 1, 0, 0, .authorised 31 1⟩) = some bytes) ∧
      (∃ bytes, Body.bytes (.notice none (.start .power true)) = some bytes) ∧
      (∃ bytes, Body.bytes (.notice none (.receipt receipt true)) = some bytes) ∧
      (receipt.records < 256 ∧ receipt.lines.length < 256 ∧ receipt.totalMWh < 2 ^ 48 ∧ receipt.totalCents < 2 ^ 48) :=
  ⟨Nat.le_of_eq List.length_replicate, ⟨_, rfl⟩, ⟨_, rfl⟩, ⟨_, rfl⟩, ⟨_, rfl⟩, by decide⟩

end Sys2Proof.Tests
end

section
/-! PROOFS: the bay link. The operands that name a bay, STAGE_SLOTS at its block, and STAGE_SLOTS as a command (R4). -/

namespace Sys2Proof.Machine

/-! ## Operands -/

theorem below_of_eq_val {n x : Nat} {i : Fin n} (h : x = i.val) : below n x = some i := by
  subst h
  exact dif_pos i.isLt

theorem below_of_le {n x : Nat} (h : n ≤ x) : below n x = none := dif_neg (Nat.not_lt.mpr h)

theorem bayOperand_of_eq_val {x : Byte} {b : BayId} (h : x.toNat = b.val) : bayOperand x = some b :=
  below_of_eq_val h

theorem bayOperand_of_gt {x : Byte} (h : 15 < x.toNat) : bayOperand x = none := below_of_le h

/-! ## STAGE_SLOTS -/

theorem stageSlots_of_bay {x : Byte} {b : BayId} (h : x.toNat = b.val) (down : Word16) (up : Word32) (s : State) :
    stageSlots x down up s =
      ⟨.ok, .nothing, { s with blc := { s.blc with staged := put s.blc.staged b ⟨down, up⟩ } }⟩ := by
  unfold stageSlots
  rw [bayOperand_of_eq_val h]

theorem stageSlots_of_gt {x : Byte} (h : 15 < x.toNat) (down : Word16) (up : Word32) (s : State) :
    stageSlots x down up s = .refuse .badArg s := by
  unfold stageSlots
  rw [bayOperand_of_gt h]

/-- A STAGE_SLOTS that is the request in service is answered by its block. -/
theorem exec_stageSlots_taken {p : Port} {x : Byte} {down : Word16} {up : Word32} {s : State} {e : Nat}
    (taken : s.takenLevel p (.stageSlots p x down up) = some e) :
    exec (.stageSlots p x down up) s = .next ((stageSlots x down up s).send p) :=
  serve_taken taken _

/-- Settles O31: the request in service is answered by its block, and the block's answer turns on whether the operand
names a bay. -/
theorem stageSlotsReplacesTheMasks : Obligations.StageSlotsReplacesTheMasks := by
  refine ⟨rfl, fun p e x down up s taken => ⟨fun b named => ?named, fun above => ?above⟩⟩
  case named => rw [exec_stageSlots_taken taken, stageSlots_of_bay named]
  case above => rw [exec_stageSlots_taken taken, stageSlots_of_gt above]

end Sys2Proof.Machine
end

section
/-! PROOFS: charging sessions. The operand that names a request, DENY at its block, and DENY as a command (R85). -/

namespace Sys2Proof.Machine

/-! ## The request id -/

/-- A request id is one more than the record it names, so it is not 0. -/
theorem requestIdOperand_of_eq_succ {x : Byte} {r : RecordId} (h : x.toNat = r.val + 1) :
    requestIdOperand x = some r := by
  have nonzero : x ≠ 0 := by
    rintro rfl
    exact Nat.succ_ne_zero r.val h.symm
  unfold requestIdOperand
  rw [if_neg nonzero, below_of_eq_val (Nat.sub_eq_of_eq_add h)]

theorem requestIdOperand_zero : requestIdOperand 0 = none := if_pos rfl

theorem requestIdOperand_of_gt {x : Byte} (h : 32 < x.toNat) : requestIdOperand x = none := by
  unfold requestIdOperand
  rw [below_of_le (Nat.le_sub_one_of_lt h), ite_self]

/-! ## DENY -/

/-- Both operands name something: the answer turns on whether that record is PENDING on that bay. -/
theorem deny_of_operands {bay requestId : Byte} {b : BayId} {r : RecordId} (named : bayOperand bay = some b)
    (asked : requestIdOperand requestId = some r) (s : State) :
    deny bay requestId s =
      if (s.record r).state ≠ .pending ∨ (s.record r).bay ≠ b then .refuse .tooLate s
      else ⟨.ok, .nothing, ((s.freeRecordOf r).setSession b none).setEndedLatch b true⟩ := by
  unfold deny
  rw [named, asked]

theorem deny_of_bay_none {bay : Byte} (h : bayOperand bay = none) (requestId : Byte) (s : State) :
    deny bay requestId s = .refuse .badArg s := by
  unfold deny
  rw [h]

theorem deny_of_requestId_none {requestId : Byte} (h : requestIdOperand requestId = none) (bay : Byte) (s : State) :
    deny bay requestId s = .refuse .badArg s := by
  unfold deny
  rw [h]
  cases bayOperand bay <;> rfl

/-- A DENY that is the request in service is answered by its block. -/
theorem exec_deny_taken {p : Port} {bay requestId : Byte} {s : State} {e : Nat}
    (taken : s.takenLevel p (.deny p bay requestId) = some e) :
    exec (.deny p bay requestId) s = .next ((deny bay requestId s).send p) :=
  serve_taken taken _

/-- What DENY and an authorisation deadline do to the PENDING record of a bay, as one update of the two tables. -/
theorem freeRecordOf_setSession_setEndedLatch (s : State) (b : BayId) (r : RecordId) :
    ((s.freeRecordOf r).setSession b none).setEndedLatch b true =
      { s with
        ssm := { s.ssm with
          records := put s.ssm.records r Record.cleared
          endedLatch := put s.ssm.endedLatch b true }
        blc := { s.blc with bays := put s.blc.bays b { s.bay b with session := none } } } := rfl

/-- Settles O17: the request in service is answered by its block, whose answer turns on whether the operands name a bay
and a record, and then on whether that record is PENDING there. -/
theorem denyFrees : Obligations.DenyFrees := by
  intro p e bay requestId s taken
  rw [exec_deny_taken taken]
  refine ⟨fun b r named asked => ?operands, ?badOperand⟩
  case operands =>
    rw [deny_of_operands (bayOperand_of_eq_val named) (requestIdOperand_of_eq_succ asked)]
    refine ⟨fun ⟨pending, onBay⟩ => ?pending, fun moved => ?tooLate⟩
    case pending =>
      rw [if_neg (not_or.mpr ⟨not_not.mpr pending, not_not.mpr onBay⟩), freeRecordOf_setSession_setEndedLatch]
    case tooLate => rw [if_pos (not_and_or.mp moved)]
  case badOperand =>
    rintro (above | rfl | above)
    · rw [deny_of_bay_none (bayOperand_of_gt above)]
    · rw [deny_of_requestId_none requestIdOperand_zero]
    · rw [deny_of_requestId_none (requestIdOperand_of_gt above)]

end Sys2Proof.Machine
end

section
/-! PROOFS: tariffs. The price triples a body holds, a run of slots written into a page, PAGE_WRITE at its block, and
PAGE_WRITE as a command (R121). -/

namespace Sys2Proof.Machine

/-! ## The triples of a body -/

/-- Triple `k` of a run of bytes, six bytes for each, most significant byte first (R121). -/
def tripleAt (entries : List Byte) (k : Nat) : Triple :=
  ⟨(entries.getD (6 * k) 0).toNat * 256 + (entries.getD (6 * k + 1) 0).toNat,
    (entries.getD (6 * k + 2) 0).toNat * 256 + (entries.getD (6 * k + 3) 0).toNat,
    (entries.getD (6 * k + 4) 0).toNat * 256 + (entries.getD (6 * k + 5) 0).toNat⟩

theorem triplesOperand_cons_of_some {rest : List Byte} {ts : List Triple} (h : triplesOperand rest = some ts)
    (s1 s0 b1 b0 g1 g0 : Byte) :
    triplesOperand (s1 :: s0 :: b1 :: b0 :: g1 :: g0 :: rest) =
      some (tripleAt (s1 :: s0 :: b1 :: b0 :: g1 :: g0 :: rest) 0 :: ts) := by
  rw [triplesOperand, h]
  rfl

/-- A whole number of triples is read as its triples, in their order. -/
theorem triplesOperand_of_length {n : Nat} {entries : List Byte} (h : entries.length = 6 * n) :
    triplesOperand entries = some ((List.range n).map (tripleAt entries)) := by
  induction n generalizing entries with
  | zero =>
    obtain rfl := List.eq_nil_of_length_eq_zero h
    rfl
  | succ n ih =>
    match entries, h with
    | s1 :: s0 :: b1 :: b0 :: g1 :: g0 :: rest, h =>
      have length_rest : rest.length = 6 * n := Nat.add_right_cancel (m := 6) h
      rw [triplesOperand_cons_of_some (ih length_rest), List.range_succ_eq_map, List.map_cons, List.map_map]
      rfl

/-- Bytes that are read as triples are six for each triple. -/
theorem length_of_triplesOperand {entries : List Byte} {ts : List Triple} (h : triplesOperand entries = some ts) :
    entries.length = 6 * ts.length := by
  induction entries using triplesOperand.induct generalizing ts with
  | case1 =>
    cases h
    rfl
  | case2 s1 s0 b1 b0 g1 g0 rest read some_rest ih =>
    rw [triplesOperand_cons_of_some some_rest] at h
    cases h
    have := ih some_rest
    simp only [List.length_cons]
    omega
  | case3 s1 s0 b1 b0 g1 g0 rest none_rest =>
    rw [triplesOperand, none_rest] at h
    cases h
  | case4 entries not_nil not_six =>
    rw [triplesOperand] at h
    · cases h
    · exact not_nil
    · exact not_six

/-! ## A run of slots -/

/-- Writes a triple into one slot of a page and marks the slot written. -/
def Page.writeSlot (i : Fin 48) (t : Triple) (pg : Page) : Page :=
  { pg with slots := put pg.slots i t, written := put pg.written i true }

theorem Page.writeRun_cons {first : Nat} (inside : first < 48) (t : Triple) (rest : List Triple) (pg : Page) :
    Page.writeRun first (t :: rest) pg = Page.writeRun (first + 1) rest (pg.writeSlot ⟨first, inside⟩ t) := by
  rw [Page.writeRun, below_of_eq_val (i := ⟨first, inside⟩) rfl]
  rfl

theorem Page.writeRun_of_le {first : Nat} (h : 48 ≤ first) (ts : List Triple) (pg : Page) :
    Page.writeRun first ts pg = pg := by
  cases ts with
  | nil => rfl
  | cons t rest => rw [Page.writeRun, below_of_le h]

/-- What holds of a page and is kept by the writing of each slot of a run holds after the run. -/
theorem Page.writeRun_keeps {P : Page → Prop} {first : Nat} {ts : List Triple} {pg : Page} (start : P pg)
    (kept : ∀ (i : Fin 48) (t : Triple) (g : Page), first ≤ i.val → i.val < first + ts.length → P g →
      P (g.writeSlot i t)) :
    P (Page.writeRun first ts pg) := by
  induction ts generalizing first pg with
  | nil => exact start
  | cons t rest ih =>
    rw [List.length_cons] at kept
    rcases Nat.lt_or_ge first 48 with inside | past
    · rw [Page.writeRun_cons inside]
      exact ih (kept ⟨first, inside⟩ t pg le_rfl (Nat.lt_add_of_pos_right (Nat.succ_pos _)) start)
        fun i u g low high => kept i u g (by omega) (by omega)
    · rw [Page.writeRun_of_le past]
      exact start

/-- A run changes the slots and the written-slot mask of its page and nothing else. -/
theorem Page.writeRun_frame (first : Nat) (ts : List Triple) (pg : Page) :
    Page.writeRun first ts pg =
      { pg with slots := (Page.writeRun first ts pg).slots, written := (Page.writeRun first ts pg).written } :=
  Page.writeRun_keeps (P := fun g => g = { pg with slots := g.slots, written := g.written }) rfl
    fun i t g _ _ same => by
      rw [same]
      rfl

/-- A run leaves each slot outside it. -/
theorem Page.writeRun_outside {first : Nat} {ts : List Triple} {i : Fin 48}
    (h : i.val < first ∨ first + ts.length ≤ i.val) (pg : Page) :
    (Page.writeRun first ts pg).written[i.val] = pg.written[i.val] ∧
      (Page.writeRun first ts pg).slots[i.val] = pg.slots[i.val] :=
  Page.writeRun_keeps (P := fun g => g.written[i.val] = pg.written[i.val] ∧ g.slots[i.val] = pg.slots[i.val])
    ⟨rfl, rfl⟩ fun j t g low high ⟨written, slots⟩ => by
      have apart : i ≠ j := by
        rintro rfl
        omega
      exact ⟨(put_ne g.written j i true apart).trans written, (put_ne g.slots j i t apart).trans slots⟩

/-- A run writes and marks each slot in it. -/
theorem Page.writeRun_inside {first k : Nat} {ts : List Triple} {i : Fin 48} (slot : i.val = first + k)
    (h : k < ts.length) (pg : Page) :
    (Page.writeRun first ts pg).written[i.val] = true ∧ (Page.writeRun first ts pg).slots[i.val] = ts[k] := by
  induction ts generalizing first k pg with
  | nil => exact absurd h (Nat.not_lt_zero k)
  | cons t rest ih =>
    have inside : first < 48 := by omega
    rw [Page.writeRun_cons inside]
    cases k with
    | zero =>
      obtain rfl : i = ⟨first, inside⟩ := Fin.ext slot
      obtain ⟨written, slots⟩ :=
        Page.writeRun_outside (i := ⟨first, inside⟩) (ts := rest) (.inl (Nat.lt_succ_self first))
          (pg.writeSlot ⟨first, inside⟩ t)
      exact ⟨written.trans (put_self ..), slots.trans (put_self ..)⟩
    | succ k => exact ih (by omega) (Nat.lt_of_succ_lt_succ h) _

/-! ## PAGE_WRITE -/

theorem page_modPage_self (s : State) (pg : PageId) (f : Page → Page) : (s.modPage pg f).page pg = f (s.page pg) := by
  rw [page_modPage, if_pos rfl]

/-- The run is refused unless it has 1 to 12 slots and ends at slot 47 at the latest. -/
theorem pageWrite_badRun_iff (first count : Byte) :
    (count = 0 ∨ 12 < count.toNat ∨ 47 < first.toNat ∨ 47 < first.toNat + count.toNat - 1) ↔
      ¬ (1 ≤ count.toNat ∧ count.toNat ≤ 12 ∧ first.toNat + count.toNat ≤ 48) := by
  have zero_iff : count = 0 ↔ count.toNat = 0 := BitVec.toNat_inj.symm
  rw [zero_iff]
  omega

theorem pageWrite_of_closed {s : State} (closed : s.tfs.staging = none) (p : Port) (first count : Byte)
    (entries : List Byte) : pageWrite p first count entries s = .refuse .notActive s := by
  unfold pageWrite
  rw [closed]

theorem pageWrite_of_other {s : State} {st : Staging} {p : Port} (staged : s.tfs.staging = some st)
    (other : st.owner ≠ p) (first count : Byte) (entries : List Byte) :
    pageWrite p first count entries s = .refuse .busy s := by
  unfold pageWrite
  rw [staged]
  exact if_pos other

/-- From the owner of the staging state, PAGE_WRITE turns on whether the run is one of the table and the body holds
exactly its triples. -/
theorem pageWrite_of_owner {s : State} {st : Staging} (staged : s.tfs.staging = some st) (first count : Byte)
    (entries : List Byte) :
    pageWrite st.owner first count entries s =
      if ¬ (1 ≤ count.toNat ∧ count.toNat ≤ 12 ∧ first.toNat + count.toNat ≤ 48) then .refuse .badArg s
      else if entries.length ≠ 6 * count.toNat then .refuse .badLength s
      else
        let run := Page.writeRun first.toNat ((List.range count.toNat).map (tripleAt entries))
        ⟨.ok, .slotsWritten (run (s.page st.page)).writtenCount, s.modPage st.page run⟩ := by
  unfold pageWrite
  simp only [staged, ne_eq, not_true_eq_false, if_false, pageWrite_badRun_iff]
  congr 1
  by_cases whole : entries.length = 6 * count.toNat
  · rw [triplesOperand_of_length whole]
    simp [whole, page_modPage_self]
  · rw [if_pos whole]
    cases read : triplesOperand entries with
    | none => rfl
    | some ts =>
      have miscounted : ts.length ≠ count.toNat := fun same => whole (same ▸ length_of_triplesOperand read)
      exact if_pos miscounted

/-- A PAGE_WRITE that is the request in service is answered by its block. -/
theorem exec_pageWrite_taken {p : Port} {first count : Byte} {entries : List Byte} {s : State} {e : Nat}
    (taken : s.takenLevel p (.pageWrite p first count entries) = some e) :
    exec (.pageWrite p first count entries) s = .next ((pageWrite p first count entries s).send p) :=
  serve_taken taken _

/-- Settles O28: the request in service is answered by its block, which checks the staging state, its owner, the run
and the body in this order; the page it leaves is the staging page after the run. -/
theorem pageWriteWritesTheRun : Obligations.PageWriteWritesTheRun := by
  intro p e first count entries s good taken good_iff
  rw [exec_pageWrite_taken taken]
  refine ⟨fun closed => ?closed, fun st staged => ⟨fun other => ?other, ?badRun, ?badLength, ?run⟩⟩
  case closed => rw [pageWrite_of_closed closed]
  case other => rw [pageWrite_of_other staged other]
  case badRun =>
    rintro rfl bad
    rw [pageWrite_of_owner staged, if_pos (mt good_iff.mpr bad)]
  case badLength =>
    rintro rfl fits miscounted
    rw [pageWrite_of_owner staged, if_neg (not_not.mpr (good_iff.mp fits)), if_pos miscounted]
  case run =>
    rintro rfl fits whole
    rw [pageWrite_of_owner staged, if_neg (not_not.mpr (good_iff.mp fits)), if_neg (not_not.mpr whole)]
    have length_run : ((List.range count.toNat).map (tripleAt entries)).length = count.toNat := by simp
    refine ⟨_, Page.writeRun first.toNat ((List.range count.toNat).map (tripleAt entries)) (s.page st.page), rfl, rfl,
      Page.writeRun_frame .., fun i => ⟨fun k below_count slot => ?inside, fun outside => ?outside⟩⟩
    case inside =>
      obtain ⟨written, slots⟩ := Page.writeRun_inside slot (length_run.symm ▸ below_count) (s.page st.page)
      refine ⟨written, slots.trans ?_⟩
      rw [List.getElem_map, List.getElem_range]
      rfl
    case outside => exact Page.writeRun_outside (length_run.symm ▸ outside) (s.page st.page)

end Sys2Proof.Machine
end

section
/-! PROOFS: the machine. What a command can do, said once: a run of changes at the blocks, an answer sent to the request
in service, a change of one port, a save, or a start-up. From it, that every command answers, and what every step
keeps. -/

namespace Sys2Proof.Machine

/-! ## Changes of the bays -/

/-- A run of changes of the Bay Link Controller and of events of the Session Manager. -/
inductive BayMoves : State → State → Prop where
  | refl (s : State) : BayMoves s s
  | trans {s t u : State} : BayMoves s t → BayMoves t u → BayMoves s u
  | blc (s : State) (x : BayLink) : BayMoves s { s with blc := x }
  | session {s t : State} : SessionMoves s t → BayMoves s t

/-- A change of a state that leaves every bay's link state and the active schedule alone keeps the two in agreement. -/
theorem linksSound_of_same {s t : State} (link : ∀ b, (t.bay b).link = (s.bay b).link)
    (scheduled : ∀ b, t.scheduled b = s.scheduled b) (h : s.LinksSound) : t.LinksSound := fun b => by
  rw [link, scheduled]
  exact h b

theorem SessionMoves.linksSound {s t : State} (h : SessionMoves s t) : s.LinksSound → t.LinksSound :=
  linksSound_of_same h.frame.link h.frame.scheduled

namespace BayMoves

theorem notices {s t : State} (h : BayMoves s t) : NoticesOnly s t := by
  induction h with
  | refl s => exact .refl s
  | trans _ _ h k => exact h.trans k
  | blc s x => exact .of_eq rfl rfl
  | session h => exact .of_moves h

theorem energy {s t : State} (h : BayMoves s t) : s.EnergySound → t.EnergySound := by
  induction h with
  | refl s => exact id
  | trans _ _ h k => exact k ∘ h
  | blc s x => exact id
  | session h => exact h.energy

theorem records {s t : State} (h : BayMoves s t) : s.RecordsSound → t.RecordsSound := by
  induction h with
  | refl s => exact id
  | trans _ _ h k => exact k ∘ h
  | blc s x => exact id
  | session h => exact h.records

theorem ivm {s t : State} (h : BayMoves s t) : t.ivm = s.ivm := by
  induction h with
  | refl s => rfl
  | trans _ _ h k => exact k.trans h
  | blc s x => rfl
  | session h => exact h.frame.ivm

theorem sst {s t : State} (h : BayMoves s t) : t.sst = s.sst := by
  induction h with
  | refl s => rfl
  | trans _ _ h k => exact k.trans h
  | blc s x => rfl
  | session h => exact h.frame.sst

theorem foldl {α : Type} (f : State → α → State) (hf : ∀ t a, BayMoves t (f t a)) (l : List α) (s : State) :
    BayMoves s (l.foldl f s) := by
  induction l generalizing s with
  | nil => exact refl s
  | cons a l ih => exact (hf s a).trans (ih _)

theorem modBay (s : State) (b : BayId) (f : Bay → Bay) : BayMoves s (s.modBay b f) := blc s _

theorem lossEvent (s : State) (b : BayId) (x : SuspensionReason) : BayMoves s (s.lossEvent b x) :=
  session (.lossEvent s b x)

theorem closeSweepBay (s : State) (b : BayId) : BayMoves s (s.closeSweepBay b) := by
  unfold State.closeSweepBay
  dsimp only
  split
  · exact refl s
  · split
    · exact modBay ..
    · split
      · exact ((modBay ..).trans (modBay ..)).trans (lossEvent ..)
      · exact (modBay ..).trans (modBay ..)
      · exact modBay ..
      · exact modBay ..

theorem applyToBay (s : State) (old new : Vector Masks 16) (b : BayId) : BayMoves s (s.applyToBay old new b) := by
  unfold State.applyToBay
  split
  · exact (modBay ..).trans (lossEvent ..)
  · exact modBay ..
  · exact refl s
  · exact refl s

theorem closeSweep (s : State) : BayMoves s s.closeSweep := by
  unfold State.closeSweep
  split
  · exact foldl _ (fun t b => closeSweepBay t b) _ s
  · exact refl s

theorem applyCommit (s : State) : BayMoves s s.applyCommit := by
  unfold State.applyCommit
  split
  · exact refl s
  · exact (blc s _).trans (foldl _ (fun t b => applyToBay t _ _ b) _ _)

theorem sweepStart (s : State) : BayMoves s s.sweepStart :=
  ((closeSweep s).trans (applyCommit _)).trans (blc _ _)

end BayMoves

/-! ## Link states over a sweep start -/

theorem bay_of_modBay_ne (s : State) {b c : BayId} (f : Bay → Bay) (h : c ≠ b) : (s.modBay b f).bay c = s.bay c := by
  rw [bay_modBay, if_neg h]

theorem lossEvent_link (s : State) (b c : BayId) (x : SuspensionReason) :
    ((s.lossEvent b x).bay c).link = (s.bay c).link := (SessionMoves.lossEvent s b x).frame.link c

theorem lossEvent_blc (s : State) (b : BayId) (x : SuspensionReason) :
    (s.lossEvent b x).blc = { s.blc with bays := (s.lossEvent b x).blc.bays } :=
  (SessionMoves.lossEvent s b x).frame.blc

/-- A change of one bay whose link state agrees with the schedule afterwards. -/
theorem linksSound_modBay {s : State} (h : s.LinksSound) (b : BayId) (f : Bay → Bay)
    (agrees : (f (s.bay b)).link = .absent ↔ s.scheduled b = false) : (s.modBay b f).LinksSound := fun c => by
  rw [bay_modBay, scheduled_modBay]
  split
  · subst c; exact agrees
  · exact h c

theorem closeSweepBay_linksSound {s : State} (h : s.LinksSound) (b : BayId) : (s.closeSweepBay b).LinksSound := by
  have counted (n : Nat) : (s.modBay b fun e => { e with missCount := n }).LinksSound := linksSound_modBay h b _ (h b)
  unfold State.closeSweepBay
  dsimp only
  split
  · exact h
  · rename_i scheduled
    have present : s.scheduled b = true := by simp_all
    have silent (n : Nat) : ((s.modBay b fun e => { e with missCount := n }).modBay b fun e =>
        { e with link := .silent }).LinksSound := linksSound_modBay (counted n) b _ (by simp [present])
    split
    · exact counted _
    · split
      · exact (SessionMoves.lossEvent ..).linksSound (silent _)
      · exact silent _
      · exact counted _
      · exact counted _

/-- What an applied commit does to link states: the bay's own follows the new copy, and the others stand. -/
theorem applyToBay_link (s : State) (old new : Vector Masks 16) (b c : BayId)
    (h : (s.bay b).link = .absent ↔ old[b.val].scheduled = false) :
    (((s.applyToBay old new b).bay b).link = .absent ↔ new[b.val].scheduled = false) ∧
      (c ≠ b → ((s.applyToBay old new b).bay c).link = (s.bay c).link) := by
  unfold State.applyToBay
  split <;> rename_i ho hn <;> rw [ho] at h <;> rw [hn]
  · simp +contextual [lossEvent_link, bay_modBay]
  · simp +contextual [bay_modBay]
  · simpa using h
  · simpa using h

theorem applyToBay_active (s : State) (old new : Vector Masks 16) (b : BayId) :
    (s.applyToBay old new b).blc.active = s.blc.active := by
  unfold State.applyToBay
  split
  · rw [lossEvent_blc]; rfl
  all_goals rfl

/-- A commit applied to a run of bays, each once: their link states follow the new copy, and the others stand. -/
theorem applyToBays_link (old new : Vector Masks 16) (l : List BayId) (s : State) (nodup : l.Nodup)
    (h : ∀ b ∈ l, (s.bay b).link = .absent ↔ old[b.val].scheduled = false) :
    (l.foldl (fun t b => t.applyToBay old new b) s).blc.active = s.blc.active ∧
      ∀ c, if c ∈ l then
          ((l.foldl (fun t b => t.applyToBay old new b) s).bay c).link = .absent ↔ new[c.val].scheduled = false
        else ((l.foldl (fun t b => t.applyToBay old new b) s).bay c).link = (s.bay c).link := by
  induction l generalizing s with
  | nil => simp
  | cons b l ih =>
    obtain ⟨fresh, nodup⟩ := List.nodup_cons.mp nodup
    have step (c : BayId) := applyToBay_link s old new b c (h b (List.mem_cons_self ..))
    obtain ⟨active, links⟩ := ih (s.applyToBay old new b) nodup fun c hc => by
      rw [(step c).2 (fun e => fresh (e ▸ hc))]
      exact h c (List.mem_cons_of_mem _ hc)
    refine ⟨active.trans (applyToBay_active ..), fun c => ?_⟩
    have := links c
    rw [List.foldl_cons]
    by_cases hb : c = b
    · subst hb
      rw [if_pos (List.mem_cons_self ..)]
      rw [if_neg fresh] at this
      rw [this]
      exact (step c).1
    · by_cases hc : c ∈ l
      · rw [if_pos (List.mem_cons_of_mem _ hc)]
        rwa [if_pos hc] at this
      · rw [if_neg (by simp [hb, hc])]
        rw [if_neg hc] at this
        rw [this, (step c).2 hb]

theorem mem_allBays (b : BayId) : b ∈ allBays := by revert b; decide

theorem allBays_nodup : allBays.Nodup := by decide

theorem applyCommit_linksSound {s : State} (h : s.LinksSound) : s.applyCommit.LinksSound := by
  unfold State.applyCommit
  split
  · exact h
  · rename_i copy _
    obtain ⟨active, links⟩ := applyToBays_link s.blc.active copy allBays
      { s with blc := { s.blc with active := copy, pendingCopy := none } } allBays_nodup (fun b _ => h b)
    intro b
    have := links b
    rw [if_pos (mem_allBays b)] at this
    rw [this]
    unfold State.scheduled State.activeMasks
    rw [active]

theorem foldl_linksSound {α : Type} {f : State → α → State}
    (hf : ∀ {t : State}, t.LinksSound → ∀ a, (f t a).LinksSound) (l : List α) {s : State} (h : s.LinksSound) :
    (l.foldl f s).LinksSound := by
  induction l generalizing s with
  | nil => exact h
  | cons a l ih => exact ih (hf h a)

theorem sweepStart_linksSound {s : State} (h : s.LinksSound) : s.sweepStart.LinksSound := by
  have closed : s.closeSweep.LinksSound := by
    unfold State.closeSweep
    split
    · exact foldl_linksSound closeSweepBay_linksSound allBays h
    · exact h
  exact linksSound_of_same (fun _ => rfl) (fun _ => rfl) (applyCommit_linksSound closed)

end Sys2Proof.Machine
end

section
/-! PROOFS: the blocks. What an owning block or an event can change, said once, and what every such change keeps. -/

namespace Sys2Proof.Machine

/-- A run of changes of the blocks. Each names what it does to a part of the state that an invariant speaks of. -/
inductive BlockChange : State → State → Prop where
  | refl (s : State) : BlockChange s s
  | trans {s t u : State} : BlockChange s t → BlockChange t u → BlockChange s u
  /-- The bays change, and link states agree with the schedule if they did. -/
  | bays {s t : State} (h : BayMoves s t) (links : s.LinksSound → t.LinksSound) : BlockChange s t
  | clc (s : State) (x : CanopyLine) : BlockChange s { s with clc := x }
  | lines (s : State) (x : Lines) : BlockChange s { s with lines := x }
  | tfs (s : State) (x : Tariffs) : BlockChange s { s with tfs := x }
  /-- The Allocation Engine changes, and the shares of its current grant set add up if everything did. -/
  | ale (s : State) (x : Allocator)
    (h : s.EnergySound → ∀ g : GrantSet, x.current = some g → g.shares01.Whole ∧ g.shares2.Whole) :
    BlockChange s { s with ale := x }
  /-- The Interval Meter changes and keeps its bounds. -/
  | ivm (s : State) (x : IntervalMeter)
    (h : s.RecordsSound ∧ s.CarriesSound →
      (x.pendingRecords.length ≤ 2 ∧ x.nextNumber ≠ 0) ∧ x.carries.All (· < 3600000)) :
    BlockChange s { s with ivm := x }
  /-- The Receipt Queue changes and keeps its bounds. -/
  | rcq (s : State) (x : ReceiptQueue) (h : s.RecordsSound → x.entries.length ≤ 8 ∧ x.nextNumber ≠ 0) :
    BlockChange s { s with rcq := x }
  /-- The working settings change and keep level 0 reachable. -/
  | working (s : State) (x : Settings) (h : s.settings.LevelZero → x.LevelZero) : BlockChange s (s.setWorking x)

namespace BlockChange

/-! ## What every change keeps -/

theorem notices {s t : State} (h : BlockChange s t) : NoticesOnly s t := by
  induction h with
  | refl s => exact .refl s
  | trans _ _ h k => exact h.trans k
  | bays h _ => exact h.notices
  | _ => exact .of_eq rfl rfl

theorem records {s t : State} (h : BlockChange s t) :
    s.RecordsSound ∧ s.CarriesSound → t.RecordsSound ∧ t.CarriesSound := by
  induction h with
  | trans _ _ h k => exact k ∘ h
  | bays h _ =>
    refine fun ⟨records, carries⟩ => ⟨h.records records, ?_⟩
    unfold State.CarriesSound
    rw [h.ivm]
    exact carries
  | ivm s x h => exact fun sound => ⟨⟨sound.1.1, sound.1.2.1, (h sound).1⟩, (h sound).2⟩
  | rcq s x h => exact fun ⟨records, carries⟩ => ⟨⟨(h records).1, (h records).2, records.2.2⟩, carries⟩
  | _ => exact id

theorem linksSound {s t : State} (h : BlockChange s t) : s.LinksSound → t.LinksSound := by
  induction h with
  | trans _ _ h k => exact k ∘ h
  | bays _ links => exact links
  | _ => exact id

theorem energy {s t : State} (h : BlockChange s t) : s.EnergySound → t.EnergySound := by
  induction h with
  | trans _ _ h k => exact k ∘ h
  | bays h _ => exact h.energy
  | ale s x h => exact fun sound => ⟨sound.1, h sound⟩
  | _ => exact id

theorem levelZero {s t : State} (h : BlockChange s t) : s.LevelZeroSound → t.LevelZeroSound := by
  induction h with
  | trans _ _ h k => exact k ∘ h
  | bays h _ =>
    unfold State.LevelZeroSound
    rw [h.sst]
    exact id
  | working s x h => exact fun ⟨kept, image, save⟩ => ⟨h kept, image, save⟩
  | _ => exact id

/-! ## Runs of changes -/

theorem session {s t : State} (h : SessionMoves s t) : BlockChange s t := bays (.session h) h.linksSound

/-- A change of one bay that leaves its link state. -/
theorem modBay (s : State) (b : BayId) (f : Bay → Bay) (h : ∀ e : Bay, (f e).link = e.link) :
    BlockChange s (s.modBay b f) :=
  bays (.modBay s b f) fun sound => linksSound_modBay sound b f (by rw [h]; exact sound b)

/-- A change of the Bay Link Controller that leaves its bays and its active schedule. -/
theorem blc (s : State) (x : BayLink) (bays : x.bays = s.blc.bays) (active : x.active = s.blc.active) :
    BlockChange s { s with blc := x } := by
  refine .bays (.blc s x) (linksSound_of_same (fun b => ?_) fun b => ?_)
  · unfold State.bay; simp only [bays]
  · unfold State.scheduled State.activeMasks; simp only [active]

/-- A change of the Allocation Engine that leaves its current grant set. -/
theorem ale_of_current (s : State) (x : Allocator) (h : x.current = s.ale.current) :
    BlockChange s { s with ale := x } := ale s x fun sound => h ▸ sound.2

/-- A change of the Interval Meter that leaves its pending list, its numbers and its carries. -/
theorem ivm_of_same (s : State) (x : IntervalMeter) (pending : x.pendingRecords = s.ivm.pendingRecords)
    (next : x.nextNumber = s.ivm.nextNumber) (carries : x.carries = s.ivm.carries) :
    BlockChange s { s with ivm := x } :=
  ivm s x fun ⟨records, sound⟩ => by rw [pending, next, carries]; exact ⟨records.2.2, sound⟩

theorem notify (s : State) (n : Notice) : BlockChange s (s.notify n) := session (.notice s n)

theorem foldl {α : Type} (f : State → α → State) (hf : ∀ t a, BlockChange t (f t a)) (l : List α) (s : State) :
    BlockChange s (l.foldl f s) := by
  induction l generalizing s with
  | nil => exact refl s
  | cons a l ih => exact (hf s a).trans (ih _)

theorem modPage (s : State) (pg : PageId) (f : Page → Page) : BlockChange s (s.modPage pg f) := tfs s _

theorem setPlan (s : State) (p : PlanId) (e : Option PlanEntry) : BlockChange s (s.setPlan p e) := tfs s _

theorem setStaging (s : State) (st : Option Staging) : BlockChange s (s.setStaging st) := tfs s _

theorem judge (s : State) (pg : PageId) : BlockChange s (s.judge pg) := by
  unfold State.judge
  split
  · exact refl s
  · exact modPage ..

theorem publish (s : State) (pg : PageId) (plans : Word16) (level : Nat) :
    BlockChange s (s.publish pg plans level) := by
  unfold State.publish
  exact (((foldl _ (fun t p => setPlan t p _) _ _).trans (modPage ..)).trans (setStaging ..)).trans
    (foldl _ (fun t old => judge t old) _ _)

theorem sweepStart (s : State) : BlockChange s s.sweepStart := bays (.sweepStart s) sweepStart_linksSound

/-! ## Interval records -/

theorem add_one_ne_zero {n : Word32} (h : n ≠ 0xFFFFFFFF#32) : n + 1 ≠ 0 := by
  intro zero
  apply h
  have : n = 0 - 1 := by rw [← zero]; simp
  simpa using this

theorem nextIntervalNumber_ne_zero (n : Word32) : nextIntervalNumber n ≠ 0 := by
  unfold nextIntervalNumber
  split
  · decide
  · rename_i h; exact add_one_ne_zero h

theorem placeRecord (s : State) (r : IntervalRecord) : BlockChange s (s.placeRecord r) := by
  unfold State.placeRecord
  split
  · rename_i first second rest pending
    refine ivm s _ fun ⟨records, carries⟩ => ⟨⟨?_, records.2.2.2⟩, carries⟩
    have := records.2.2.1
    rw [pending] at this
    exact this
  · rename_i short
    refine (ivm s { s.ivm with
      pendingRecords := s.ivm.pendingRecords ++ [{ r with number := s.ivm.nextNumber }]
      nextNumber := nextIntervalNumber s.ivm.nextNumber } fun ⟨records, carries⟩ =>
        ⟨⟨?_, nextIntervalNumber_ne_zero _⟩, carries⟩).trans (notify _ _)
    match pending : s.ivm.pendingRecords, short with
    | [], _ => simp
    | [_], _ => simp
    | a :: b :: rest, short => exact absurd rfl (short a b rest)

theorem carries_lt (x : Six) : (x.map (· % whMJ)).All (· < 3600000) := by
  have h (n : Nat) : n % whMJ < 3600000 := Nat.mod_lt _ (by decide)
  exact ⟨h _, h _, h _, h _, h _, h _⟩

theorem closeInterval (s : State) (i : Interval) (stop : SiteTime) (changed : Bool) :
    BlockChange s (s.closeInterval i stop changed) :=
  (ivm s { s.ivm with carries := (i.acc.add s.ivm.carries).map (· % whMJ) }
    fun ⟨records, _⟩ => ⟨records.2.2, carries_lt _⟩).trans (placeRecord _ _)

theorem beginInterval (s : State) (t : SiteTime) (partialStart : Bool) :
    BlockChange s (s.beginInterval t partialStart) := ivm_of_same s _ rfl rfl rfl

theorem startClock (s : State) (t : SiteTime) : BlockChange s (s.startClock t) :=
  (ivm_of_same s { s.ivm with clock := some t } rfl rfl rfl).trans (beginInterval ..)

theorem integrate (s : State) (m : MeasurementSet) : BlockChange s (s.integrate m) := by
  unfold State.integrate
  split
  · exact ivm_of_same s _ rfl rfl rfl
  · exact refl s

/-! ## The grant set -/

/-- The shares of a split add up: what the sun and the battery give never passes the power split (R51). -/
theorem sharesOf_whole (solar discharge power01 power2 : Nat) :
    (sharesOf (sourcesOf solar discharge power01 power2) power01).Whole := by
  unfold sharesOf Shares.Whole
  split
  · rfl
  · rename_i nonzero
    have parts : (sourcesOf solar discharge power01 power2).solar +
        (sourcesOf solar discharge power01 power2).battery ≤ power01 := by
      simp only [sourcesOf]; omega
    generalize (sourcesOf solar discharge power01 power2).solar = a at parts ⊢
    generalize (sourcesOf solar discharge power01 power2).battery = b at parts ⊢
    have whole : 1000 * a / power01 + 1000 * b / power01 ≤ 1000 := calc
      _ ≤ (1000 * a + 1000 * b) / power01 := Nat.div_add_div_le_add_div ..
      _ ≤ 1000 * power01 / power01 := Nat.div_le_div_right (by omega)
      _ = 1000 := Nat.mul_div_cancel _ (Nat.pos_of_ne_zero nonzero)
    dsimp only
    omega

/-- A bay after an allocation (R72). -/
theorem bay_writeShedding (s : State) (z : Shedding) (grants : Vector Nat 16) (b : BayId) :
    (s.writeShedding z grants).bay b =
      (s.bay b).setAllocation grants[b.val] (z.placeOf b) ((s.eligible b).map (·.seq)) := by
  unfold State.writeShedding State.bay
  simp

theorem writeShedding (s : State) (z : Shedding) (grants : Vector Nat 16) :
    BlockChange s (s.writeShedding z grants) :=
  (ale_of_current s
    { s.ale with shedStack := z.stack, unlisted := z.unlisted, overflowCount := z.overflow } rfl).trans
    (.bays (.blc _ _) (linksSound_of_same (fun b => by
      rw [bay_writeShedding]; rfl) fun _ => rfl))

theorem install (s : State) (g : GrantSet) (whole : g.shares01.Whole ∧ g.shares2.Whole) :
    BlockChange s (s.install g) :=
  ale s _ fun _ _ new => Option.some.inj new ▸ whole

theorem newGrantSet_whole (s : State) (m : MeasurementSet) :
    (s.newGrantSet m).shares01.Whole ∧ (s.newGrantSet m).shares2.Whole := by
  have shares (t : Terms) (a : Allotment) : (s.formGrantSet m t a).shares01 =
      sharesOf (sourcesOf m.solar t.discharge a.power01 a.power2) a.power01 := rfl
  exact ⟨by unfold State.newGrantSet; rw [shares]; exact sharesOf_whole .., rfl⟩

theorem installSet (s : State) (m : MeasurementSet) : BlockChange s (s.installSet m) :=
  (writeShedding ..).trans (install _ _ (newGrantSet_whole s m))

theorem raiseAlarm (s : State) (a : Option Alarm) : BlockChange s (s.raiseAlarm a) := by
  unfold State.raiseAlarm
  split
  · exact notify ..
  · exact refl s

theorem allocate (s : State) (m : MeasurementSet) : BlockChange s (s.allocate m) :=
  ((installSet s m).trans (session (.grantSetEvent _))).trans (raiseAlarm ..)

end BlockChange

end Sys2Proof.Machine
end

section
/-! PROOFS: the answers. What each owning block makes of a request: a change of the blocks, and none where
it refuses. -/

namespace Sys2Proof.Machine

/-- An answer to a request in a state: its block has changed the state, and has left it where the request is refused
(R185). -/
structure Answer.Fits (s : State) (a : Answer) : Prop where
  change : BlockChange s a.state
  refusal : a.code.carriedOut = false → a.state = s

namespace Answer.Fits

theorem same (code : ResultCode) (contents : Contents) (s : State) : (Answer.same code contents s).Fits s :=
  ⟨.refl s, fun _ => rfl⟩

theorem refuse (code : ResultCode) (s : State) : (Answer.refuse code s).Fits s := ⟨.refl s, fun _ => rfl⟩

theorem ok {s t : State} (h : BlockChange s t) (contents : Contents) : (Answer.mk .ok contents t).Fits s := ⟨h, nofun⟩

/-! ## The bay link -/

theorem stageSlots (a : Byte) (b : Word16) (c : Word32) (s : State) : (Machine.stageSlots a b c s).Fits s := by
  unfold Machine.stageSlots
  split
  · exact refuse ..
  · exact ok (.blc s _ (by rfl) (by rfl)) _

theorem commitSchedule (s : State) : (Machine.commitSchedule s).Fits s := by
  unfold Machine.commitSchedule
  split
  · exact same ..
  · exact same ..
  · exact ok (.blc s _ (by rfl) (by rfl)) _

theorem getBay (a : Byte) (s : State) : (Machine.getBay a s).Fits s := by
  unfold Machine.getBay
  split
  · exact refuse ..
  · exact same ..

/-! ## Sessions -/

theorem authorize (e : Nat) (a b c d f : Byte) (g h : Word32) (s : State) :
    (Machine.authorize e a b c d f g h s).Fits s := by
  unfold Machine.authorize
  split
  · split
    · exact refuse ..
    · split
      · exact refuse ..
      · exact refuse ..
      · exact ok (.session (.openRoot _ _ _ (by rfl))) _
  · exact refuse ..

theorem tillVoucher (e : Nat) (a c d f : Byte) (g h : Word32) (s : State) :
    (Machine.tillVoucher e a c d f g h s).Fits s := by
  unfold Machine.tillVoucher
  split
  · exact refuse ..
  · dsimp only
    split
    · exact refuse ..
    · split
      · exact refuse ..
      · split
        · exact refuse ..
        · split
          · exact refuse ..
          · exact refuse ..
          · split
            · exact refuse ..
            · exact ok (.session ((((SessionMoves.takeRecord _ _ _ (by rfl)).trans (.openRoot _ _ _ (by rfl))).trans
                (.setEndedLatch ..)).trans (.setNoContextMark ..))) _

theorem deny (a b : Byte) (s : State) : (Machine.deny a b s).Fits s := by
  unfold Machine.deny
  split
  · split
    · exact refuse ..
    · exact ok (.session (((SessionMoves.freeRecordOf ..).trans (.setSession ..)).trans (.setEndedLatch ..))) _
  · exact refuse ..

theorem stopSession (a : Byte) (s : State) : (Machine.stopSession a s).Fits s := by
  unfold Machine.stopSession
  split
  · exact refuse ..
  · split
    · exact ok (.session (.closeByTable ..)) _
    · exact refuse ..

theorem setClass (a b : Byte) (s : State) : (Machine.setClass a b s).Fits s := by
  unfold Machine.setClass
  split
  · split
    · exact ok (.session (.keepRecord _ _ _ (by exact fun _ => ⟨rfl, rfl⟩))) _
    · exact refuse ..
  · exact refuse ..

theorem transfer (a b : Byte) (s : State) : (Machine.transfer a b s).Fits s := by
  unfold Machine.transfer
  split
  · dsimp only
    split
    · exact refuse ..
    · split
      · exact refuse ..
      · split
        · exact refuse ..
        · split
          · exact refuse ..
          · exact ok (.session (.beginTransfer ..)) _
  · exact refuse ..

theorem cancelTransfer (a : Byte) (s : State) : (Machine.cancelTransfer a s).Fits s := by
  unfold Machine.cancelTransfer
  split
  · exact refuse ..
  · split
    · exact ok (.session ((SessionMoves.releaseReservation ..).trans (.suspend ..))) _
    · exact refuse ..

theorem getSession (a : Byte) (s : State) : (Machine.getSession a s).Fits s := by
  unfold Machine.getSession
  split
  · exact refuse ..
  · exact same ..

/-! ## Receipts -/

theorem withoutReceipt_length (n : Word32) (l : List Receipt) : (withoutReceipt n l).length ≤ l.length :=
  List.length_eraseP_le

theorem receiptAck (n : Word32) (s : State) : (Machine.receiptAck n s).Fits s := by
  unfold Machine.receiptAck
  split
  · exact same ..
  · refine ok ((BlockChange.rcq s { s.rcq with entries := withoutReceipt n s.rcq.entries } fun records => ?_).trans
      (.session ((SessionMoves.freeChain _ _).trans (.drain _)))) _
    exact ⟨(withoutReceipt_length ..).trans records.1, records.2.1⟩

theorem receiptGet (n : Word32) (s : State) : (Machine.receiptGet n s).Fits s := by
  unfold Machine.receiptGet
  split
  · exact same ..
  · split
    · exact same ..
    · exact ok (.notify ..) _

theorem setReceiptBase (n : Word32) (s : State) : (Machine.setReceiptBase n s).Fits s := by
  unfold Machine.setReceiptBase
  split
  · exact refuse ..
  · rename_i nonzero
    split
    · exact same ..
    · exact ok (.rcq s { s.rcq with nextNumber := n } fun records => ⟨records.1, nonzero⟩) _

/-! ## Tariffs -/

theorem pageOpen (p : Port) (a : Label) (b : Byte) (c : Word16) (d f : Byte) (g : Word16) (s : State) :
    (Machine.pageOpen p a b c d f g s).Fits s := by
  unfold Machine.pageOpen
  split
  · split
    · exact refuse ..
    · split
      · exact refuse ..
      · split
        · exact refuse ..
        · exact ok ((BlockChange.modPage ..).trans (.setStaging ..)) _
  · exact refuse ..

theorem pageWrite (p : Port) (a b : Byte) (l : List Byte) (s : State) : (Machine.pageWrite p a b l s).Fits s := by
  unfold Machine.pageWrite
  split
  · exact refuse ..
  · split
    · exact refuse ..
    · split
      · exact refuse ..
      · split
        · exact refuse ..
        · split
          · exact refuse ..
          · exact ok (.modPage ..) _

theorem pageDiscard (s : State) : (Machine.pageDiscard s).Fits s := by
  unfold Machine.pageDiscard
  split
  · exact refuse ..
  · exact ok ((BlockChange.modPage ..).trans (.setStaging ..)) _

theorem pagePublish (e : Nat) (p : Port) (a : Word16) (b : Byte) (s : State) :
    (Machine.pagePublish e p a b s).Fits s := by
  unfold Machine.pagePublish
  split
  · exact refuse ..
  · split
    · exact refuse ..
    · split
      · exact refuse ..
      · split
        · exact refuse ..
        · split
          · exact refuse ..
          · split
            · exact same ..
            · exact ok (.publish ..) _

theorem planClear (e : Nat) (a : Byte) (s : State) : (Machine.planClear e a s).Fits s := by
  unfold Machine.planClear
  split
  · exact refuse ..
  · split
    · exact refuse ..
    · split
      · exact refuse ..
      · exact ok ((BlockChange.setPlan ..).trans (.judge ..)) _

theorem getPlan (a : Byte) (s : State) : (Machine.getPlan a s).Fits s := by
  unfold Machine.getPlan
  split
  · exact same ..
  · exact refuse ..

/-! ## The budget, the intervals and the settings -/

theorem curtail (a b : Word32) (s : State) : (Machine.curtail a b s).Fits s := by
  unfold Machine.curtail
  split
  · exact refuse ..
  · refine ⟨.ale_of_current s _ rfl, fun refused => ?_⟩
    dsimp only at refused
    split at refused <;> cases refused

theorem curtailEnd (s : State) : (Machine.curtailEnd s).Fits s := by
  unfold Machine.curtailEnd
  split
  · exact ok (.ale_of_current s _ (by rfl)) _
  · exact refuse ..

theorem setClock (a : Word16) (b : Word32) (s : State) : (Machine.setClock a b s).Fits s := by
  unfold Machine.setClock
  split
  · exact refuse ..
  · split
    · exact ok ((BlockChange.closeInterval ..).trans (.startClock ..)) _
    · exact ok (.startClock ..) _

theorem intervalAck (n : Word32) (s : State) : (Machine.intervalAck n s).Fits s := by
  unfold Machine.intervalAck
  split
  · exact refuse ..
  · rename_i oldest rest pending
    split
    · exact same ..
    · refine ok (.ivm s { s.ivm with pendingRecords := rest } fun ⟨records, carries⟩ =>
        ⟨⟨?_, records.2.2.2⟩, carries⟩) _
      have bound := records.2.2.1
      rw [pending] at bound
      exact Nat.le_of_succ_le bound

/-- A value that SET_SETTING takes keeps level 0 reachable: a ceiling that would not is refused (R182). -/
theorem write_levelZero {t : Settings} {id : SettingId} {v : Nat} (kept : ¬ id.shutsOut t v = true)
    (h : t.LevelZero) : (id.write v t).LevelZero := by
  cases id
  case ceilingA => simp only [SettingId.shutsOut, Bool.and_eq_true, decide_eq_true_eq] at kept
                   show v = 0 ∨ t.ceilingB = 0
                   omega
  case ceilingB => simp only [SettingId.shutsOut, Bool.and_eq_true, decide_eq_true_eq] at kept
                   show t.ceilingA = 0 ∨ v = 0
                   omega
  all_goals exact h

theorem setSetting (a : Word16) (b : Word32) (s : State) : (Machine.setSetting a b s).Fits s := by
  unfold Machine.setSetting
  split
  · exact refuse ..
  · split
    · exact refuse ..
    · split
      · exact refuse ..
      · rename_i kept
        refine ⟨.working s _ (write_levelZero kept), fun refused => ?_⟩
        dsimp only at refused
        split at refused <;> cases refused

end Answer.Fits

end Sys2Proof.Machine
end

section
/-! PROOFS: the commands. What a command makes of a state, said once, and the statements that follow from it: every
command answers, every step keeps what a sound state keeps, and a refusal leaves the state. -/

namespace Sys2Proof.Machine

/-- What a command makes of a state. -/
inductive CommandOutcome (c : Instr) (s : State) : State → Prop where
  /-- Nothing happens. -/
  | idle : CommandOutcome c s s
  /-- An event changes the blocks. -/
  | event {t : State} (noRequest : requestBytes c = none) (change : BlockChange s t) : CommandOutcome c s t
  /-- An event changes one port, and keeps its bounds. -/
  | port (noRequest : requestBytes c = none) (p : Port) (f : PortContext → PortContext)
    (sound : ∀ x : PortContext, x.Sound → (f x).Sound) : CommandOutcome c s (s.modPort p f)
  /-- A request in service is answered. -/
  | answered {p : Port} {k : RequestKind} {body : List Byte} {e : Nat} (request : requestBytes c = some (p, k, body))
    (taken : s.takenLevel p c = some e) {a : Answer} (fits : a.Fits s) : CommandOutcome c s (a.send p)
  /-- A save begins, its request staying in service. -/
  | saveBegun {p : Port} {k : RequestKind} {body : List Byte} {e : Nat} (request : requestBytes c = some (p, k, body))
    (taken : s.takenLevel p c = some e) : CommandOutcome c s (s.beginSave p)
  /-- A save completes. -/
  | saved (noRequest : requestBytes c = none) {copy : Settings} {p : Port} (saving : s.sst.save = .saving copy p) :
    CommandOutcome c s (({ s with sst := { s.sst with image := ⟨true, copy⟩, save := .idle } } : State).modPort p
      fun x => if x.service = .awaiting then x.answer .ok .nothing else x)
  /-- The part starts up. -/
  | startUp (cause : ResetCause) : CommandOutcome c s (startUp cause s.sst.image s.pending)

namespace CommandOutcome

/-- A request at its block. -/
theorem serve {p : Port} {c : Instr} {k : RequestKind} {body : List Byte} (request : requestBytes c = some (p, k, body))
    (s : State) {block : Nat → Answer} (fits : ∀ e, (block e).Fits s) :
    ∃ t, serve p c s block = .next t ∧ CommandOutcome c s t := by
  obtain ⟨e, taken, answered⟩ | ⟨_, idle⟩ := serve_cases p c s block
  · exact ⟨_, answered, .answered request taken (fits e)⟩
  · exact ⟨_, idle, .idle⟩

theorem saveSettings (p : Port) (s : State) :
    ∃ t, exec (.saveSettings p) s = .next t ∧ CommandOutcome (.saveSettings p) s t := by
  show ∃ t, execSaveSettings p s = .next t ∧ _
  unfold execSaveSettings
  split
  · rename_i taken
    split
    · exact ⟨_, rfl, .answered rfl taken (.refuse ..)⟩
    · exact ⟨_, rfl, .saveBegun rfl taken⟩
  · exact ⟨_, rfl, .idle⟩

theorem restart (p : Port) (s : State) : ∃ t, exec (.restart p) s = .next t ∧ CommandOutcome (.restart p) s t := by
  show ∃ t, execRestart p s = .next t ∧ _
  unfold execRestart
  split
  · rename_i taken
    split
    · exact ⟨_, rfl, .answered rfl taken (.refuse ..)⟩
    · exact ⟨_, rfl, .startUp _⟩
  · exact ⟨_, rfl, .idle⟩

theorem saveComplete (s : State) : ∃ t, exec .saveComplete s = .next t ∧ CommandOutcome .saveComplete s t := by
  show ∃ t, execSaveComplete s = .next t ∧ _
  unfold execSaveComplete
  split
  · rename_i saving
    exact ⟨_, rfl, .saved rfl saving⟩
  · exact ⟨_, rfl, .idle⟩

/-! ## The events of the bay link -/

theorem countValid_change (s : State) (b : BayId) (corrected : Bool) : BlockChange s (s.countValid b corrected) :=
  .modBay s b _ fun e => by cases corrected <;> rfl

/-- A valid frame makes its bay ONLINE, which a scheduled bay may be (R13). -/
theorem hear_change {s : State} {b : BayId} (scheduled : s.scheduled b = true) : BlockChange s (s.hear b) :=
  (BlockChange.bays (.modBay s b fun e => { e with link := .online, missCount := 0 }) fun sound =>
    linksSound_modBay sound b _ (by simp [scheduled])).trans (.blc _ _ rfl rfl)

theorem takeStatus_change (s : State) (b : BayId) (f : StatusFrame) : BlockChange s (s.takeStatus b f) := by
  unfold State.takeStatus
  exact (BlockChange.session (.statusEvent ..)).trans (.modBay _ b _ (by exact fun _ => rfl))

theorem takeMeter_change (s : State) (b : BayId) (f : MeterFrame) : BlockChange s (s.takeMeter b f) :=
  (BlockChange.modBay s b _ (by exact fun _ => rfl)).trans
    (.session (NoticesOnly.routeDelta b (meterDelta (s.bay b).lastCounter f.counter).1 f.counter (s.readMeter b f)))

theorem status (slot : Fin 32) (heard : List Byte) (s : State) :
    ∃ t, exec (.status slot heard) s = .next t ∧ CommandOutcome (.status slot heard) s t := by
  show ∃ t, execStatus slot heard s = .next t ∧ _
  unfold execStatus
  split
  · rename_i b corrected f _ _
    refine ⟨_, rfl, .event rfl ?_⟩
    split
    · rename_i scheduled
      exact ((countValid_change s b corrected).trans (hear_change scheduled)).trans (takeStatus_change ..)
    · exact countValid_change ..
  · exact ⟨_, rfl, .idle⟩

theorem meter (slot : Fin 32) (heard : List Byte) (s : State) :
    ∃ t, exec (.meter slot heard) s = .next t ∧ CommandOutcome (.meter slot heard) s t := by
  show ∃ t, execMeter slot heard s = .next t ∧ _
  unfold execMeter
  split
  · rename_i b corrected f _ _
    refine ⟨_, rfl, .event rfl ?_⟩
    split
    · rename_i scheduled
      exact ((countValid_change s b corrected).trans (hear_change scheduled)).trans (takeMeter_change ..)
    · exact countValid_change ..
  · exact ⟨_, rfl, .idle⟩

theorem discardedFrame (slot : Fin 32) (heard : List Byte) (s : State) :
    ∃ t, exec (.discardedFrame slot heard) s = .next t ∧ CommandOutcome (.discardedFrame slot heard) s t := by
  show ∃ t, execDiscardedFrame slot heard s = .next t ∧ _
  unfold execDiscardedFrame
  split
  · exact ⟨_, rfl, .event rfl (.modBay s _ _ (by exact fun _ => rfl))⟩
  · exact ⟨_, rfl, .idle⟩

theorem grant (slot : Fin 16) (s : State) :
    ∃ t, exec (.grant slot) s = .next t ∧ CommandOutcome (.grant slot) s t := by
  show ∃ t, execGrant slot s = .next t ∧ _
  unfold execGrant
  split
  · rename_i b _
    exact ⟨_, rfl, .event rfl ((BlockChange.modBay s b _ (by exact fun _ => rfl)).trans (.lines _ _))⟩
  · exact ⟨_, rfl, .idle⟩

/-! ## The events of sessions -/

theorem authTimeout (r : RecordId) (s : State) :
    ∃ t, exec (.authTimeout r) s = .next t ∧ CommandOutcome (.authTimeout r) s t := by
  show ∃ t, execAuthTimeout r s = .next t ∧ _
  unfold execAuthTimeout
  dsimp only
  split
  · exact ⟨_, rfl, .event rfl (.session ((((SessionMoves.freeRecordOf ..).trans (.setSession ..)).trans
      (.setEndedLatch ..)).trans (.notice ..)))⟩
  · exact ⟨_, rfl, .idle⟩

theorem resumeDeadlineExpiry (r : RecordId) (s : State) :
    ∃ t, exec (.resumeDeadlineExpiry r) s = .next t ∧ CommandOutcome (.resumeDeadlineExpiry r) s t := by
  show ∃ t, execResumeDeadlineExpiry r s = .next t ∧ _
  unfold execResumeDeadlineExpiry
  split
  · exact ⟨_, rfl, .event rfl (.session (.closeByTable ..))⟩
  · exact ⟨_, rfl, .idle⟩

theorem transferTimeout (r : RecordId) (s : State) :
    ∃ t, exec (.transferTimeout r) s = .next t ∧ CommandOutcome (.transferTimeout r) s t := by
  show ∃ t, execTransferTimeout r s = .next t ∧ _
  unfold execTransferTimeout
  split
  · exact ⟨_, rfl, .event rfl (.session (.closeByTable ..))⟩
  · exact ⟨_, rfl, .idle⟩

/-! ## The events of the canopy line and of the budget -/

theorem curtailmentExpiry (s : State) :
    ∃ t, exec .curtailmentExpiry s = .next t ∧ CommandOutcome .curtailmentExpiry s t := by
  show ∃ t, execCurtailmentExpiry s = .next t ∧ _
  unfold execCurtailmentExpiry
  split
  · split
    · exact ⟨_, rfl, .event rfl (.ale_of_current s _ rfl)⟩
    · exact ⟨_, rfl, .idle⟩
  · exact ⟨_, rfl, .idle⟩

theorem poll (s : State) : ∃ t, exec .poll s = .next t ∧ CommandOutcome .poll s t := by
  show ∃ t, execPoll s = .next t ∧ _
  unfold execPoll
  dsimp only
  split
  · exact ⟨_, rfl, .event rfl ((BlockChange.clc s _).trans (.lines _ _))⟩
  · exact ⟨_, rfl, .idle⟩

/-- A change of the Canopy Line Controller alone. -/
theorem clc_event {c : Instr} (noRequest : requestBytes c = none) {s t : State} (h : t = { s with clc := t.clc }) :
    CommandOutcome c s t := .event noRequest (h ▸ .clc s t.clc)

theorem canopySample (node : Fin 8) (heard : List Byte) (s : State) :
    ∃ t, exec (.canopySample node heard) s = .next t ∧ CommandOutcome (.canopySample node heard) s t := by
  show ∃ t, execCanopySample node heard s = .next t ∧ _
  unfold execCanopySample
  split
  · exact ⟨_, rfl, clc_event rfl (by split <;> rfl)⟩
  · exact ⟨_, rfl, .idle⟩

theorem batterySample (heard : List Byte) (s : State) :
    ∃ t, exec (.batterySample heard) s = .next t ∧ CommandOutcome (.batterySample heard) s t := by
  show ∃ t, execBatterySample heard s = .next t ∧ _
  unfold execBatterySample
  split
  · exact ⟨_, rfl, clc_event rfl (by split <;> rfl)⟩
  · exact ⟨_, rfl, .idle⟩

theorem meterSample (heard : List Byte) (s : State) :
    ∃ t, exec (.meterSample heard) s = .next t ∧ CommandOutcome (.meterSample heard) s t := by
  show ∃ t, execMeterSample heard s = .next t ∧ _
  unfold execMeterSample
  split
  · exact ⟨_, rfl, clc_event rfl (by split <;> rfl)⟩
  · exact ⟨_, rfl, .idle⟩

theorem canopyDiscard (node : NodeId) (heard : List Byte) (s : State) :
    ∃ t, exec (.canopyDiscard node heard) s = .next t ∧ CommandOutcome (.canopyDiscard node heard) s t := by
  show ∃ t, execCanopyDiscard node heard s = .next t ∧ _
  unfold execCanopyDiscard
  split
  · exact ⟨_, rfl, clc_event rfl rfl⟩
  · exact ⟨_, rfl, .idle⟩

theorem noReply (node : NodeId) (heard : List Byte) (s : State) :
    ∃ t, exec (.noReply node heard) s = .next t ∧ CommandOutcome (.noReply node heard) s t := by
  show ∃ t, execNoReply node heard s = .next t ∧ _
  unfold execNoReply
  split
  · exact ⟨_, rfl, clc_event rfl rfl⟩
  · exact ⟨_, rfl, .idle⟩

theorem cycleEnd_change (s : State) (m : MeasurementSet) : BlockChange s ((s.closeWindows.handSet m).beginCycle) :=
  (((BlockChange.clc s s.closeWindows.clc).trans
    (.ale_of_current _ { s.ale with inbox := s.ale.inbox ++ [m] } rfl)).trans
    (.ivm_of_same _ { s.ivm with inbox := s.ivm.inbox ++ [m] } rfl rfl rfl)).trans (.clc _ _)

theorem allocation (s : State) : ∃ t, exec .allocation s = .next t ∧ CommandOutcome .allocation s t := by
  show ∃ t, execAllocation s = .next t ∧ _
  unfold execAllocation
  split
  · exact ⟨_, rfl, .idle⟩
  · rename_i m rest _
    exact ⟨_, rfl, .event rfl ((BlockChange.ale_of_current s { s.ale with inbox := rest } rfl).trans (.allocate _ m))⟩

theorem measurementSetAtIvm (s : State) :
    ∃ t, exec .measurementSetAtIvm s = .next t ∧ CommandOutcome .measurementSetAtIvm s t := by
  show ∃ t, execMeasurementSetAtIvm s = .next t ∧ _
  unfold execMeasurementSetAtIvm
  split
  · exact ⟨_, rfl, .idle⟩
  · rename_i m rest _
    exact ⟨_, rfl, .event rfl
      ((BlockChange.ivm_of_same s { s.ivm with inbox := rest } rfl rfl rfl).trans (.integrate _ m))⟩

theorem boundaryClose (s : State) : ∃ t, exec .boundaryClose s = .next t ∧ CommandOutcome .boundaryClose s t := by
  show ∃ t, execBoundaryClose s = .next t ∧ _
  unfold execBoundaryClose
  split
  · split
    · exact ⟨_, rfl, .event rfl ((BlockChange.closeInterval ..).trans (.beginInterval ..))⟩
    · exact ⟨_, rfl, .idle⟩
  · exact ⟨_, rfl, .idle⟩

end CommandOutcome

/-- Every command in every state has one of these outcomes. -/
theorem exec_outcome (c : Instr) (s : State) : ∃ t, exec c s = .next t ∧ CommandOutcome c s t := by
  cases c with
  | getStatus p => exact CommandOutcome.serve rfl s fun _ => .same ..
  | getBay p bay => exact CommandOutcome.serve rfl s fun _ => .getBay ..
  | getSession p record => exact CommandOutcome.serve rfl s fun _ => .getSession ..
  | getPlan p plan => exact CommandOutcome.serve rfl s fun _ => .getPlan ..
  | getSchedule p => exact CommandOutcome.serve rfl s fun _ => .same ..
  | getInterval p => exact CommandOutcome.serve rfl s fun _ => .same ..
  | authorize => exact CommandOutcome.serve rfl s fun _ => .authorize ..
  | tillVoucher => exact CommandOutcome.serve rfl s fun _ => .tillVoucher ..
  | deny => exact CommandOutcome.serve rfl s fun _ => .deny ..
  | stopSession => exact CommandOutcome.serve rfl s fun _ => .stopSession ..
  | setClass => exact CommandOutcome.serve rfl s fun _ => .setClass ..
  | transfer => exact CommandOutcome.serve rfl s fun _ => .transfer ..
  | cancelTransfer => exact CommandOutcome.serve rfl s fun _ => .cancelTransfer ..
  | receiptAck => exact CommandOutcome.serve rfl s fun _ => .receiptAck ..
  | receiptGet => exact CommandOutcome.serve rfl s fun _ => .receiptGet ..
  | setReceiptBase => exact CommandOutcome.serve rfl s fun _ => .setReceiptBase ..
  | pageOpen => exact CommandOutcome.serve rfl s fun _ => .pageOpen ..
  | pageWrite => exact CommandOutcome.serve rfl s fun _ => .pageWrite ..
  | pagePublish => exact CommandOutcome.serve rfl s fun _ => .pagePublish ..
  | pageDiscard => exact CommandOutcome.serve rfl s fun _ => .pageDiscard ..
  | planClear => exact CommandOutcome.serve rfl s fun _ => .planClear ..
  | stageSlots => exact CommandOutcome.serve rfl s fun _ => .stageSlots ..
  | commitSchedule => exact CommandOutcome.serve rfl s fun _ => .commitSchedule ..
  | curtail => exact CommandOutcome.serve rfl s fun _ => .curtail ..
  | curtailEnd => exact CommandOutcome.serve rfl s fun _ => .curtailEnd ..
  | setClock => exact CommandOutcome.serve rfl s fun _ => .setClock ..
  | intervalAck => exact CommandOutcome.serve rfl s fun _ => .intervalAck ..
  | setSetting => exact CommandOutcome.serve rfl s fun _ => .setSetting ..
  | saveSettings p => exact CommandOutcome.saveSettings p s
  | restart p => exact CommandOutcome.restart p s
  | saveComplete => exact CommandOutcome.saveComplete s
  | powerOn => exact ⟨_, rfl, .startUp _⟩
  | resetPin => exact ⟨_, rfl, .startUp _⟩
  | requestArrival p bytes => exact ⟨_, rfl, .port rfl p _ fun _ h => PortContext.take_sound h bytes⟩
  | messageDiscard p bytes => exact ⟨_, rfl, .port rfl p _ fun _ h => PortContext.take_sound h bytes⟩
  | interByteTimeout p next =>
    exact ⟨_, rfl, .port rfl p _ fun _ h => PortContext.take_sound (PortContext.timeOut_sound h) [next]⟩
  | serviceStart p => exact ⟨_, rfl, .port rfl p _ fun _ h => PortContext.startService_sound h _⟩
  | transmitComplete p => exact ⟨_, rfl, .port rfl p _ fun _ h => PortContext.completeSending_sound h⟩
  | sweepStart => exact ⟨_, rfl, .event rfl (.sweepStart s)⟩
  | grant slot => exact CommandOutcome.grant slot s
  | status slot heard => exact CommandOutcome.status slot heard s
  | meter slot heard => exact CommandOutcome.meter slot heard s
  | discardedFrame slot heard => exact CommandOutcome.discardedFrame slot heard s
  | authTimeout r => exact CommandOutcome.authTimeout r s
  | resumeDeadlineExpiry r => exact CommandOutcome.resumeDeadlineExpiry r s
  | transferTimeout r => exact CommandOutcome.transferTimeout r s
  | curtailmentExpiry => exact CommandOutcome.curtailmentExpiry s
  | poll => exact CommandOutcome.poll s
  | canopySample node heard => exact CommandOutcome.canopySample node heard s
  | batterySample heard => exact CommandOutcome.batterySample heard s
  | meterSample heard => exact CommandOutcome.meterSample heard s
  | canopyDiscard node heard => exact CommandOutcome.canopyDiscard node heard s
  | noReply node heard => exact CommandOutcome.noReply node heard s
  | cycleEnd => exact ⟨_, rfl, .event rfl (CommandOutcome.cycleEnd_change s _)⟩
  | allocation => exact CommandOutcome.allocation s
  | measurementSetAtIvm => exact CommandOutcome.measurementSetAtIvm s
  | boundaryClose => exact CommandOutcome.boundaryClose s

end Sys2Proof.Machine
end

section
/-! PROOFS: the five invariants and what every command does. Each follows from the outcomes a command can have. -/

namespace Sys2Proof.Machine

/-! ## Every command answers -/

theorem CommandOutcome.pending {c : Instr} {s t : State} (h : CommandOutcome c s t) : t.pending = s.pending := by
  cases h with
  | idle => rfl
  | event _ change => exact change.notices.1
  | port => exact modPort_pending ..
  | answered _ _ fits => exact (send_pending ..).trans fits.change.notices.1
  | saveBegun => exact modPort_pending ..
  | saved => exact modPort_pending ..
  | startUp => rfl

/-- Settles O3: every outcome of a command leaves the queue of waiting commands. -/
theorem everyCommandAnswers : Obligations.EveryCommandAnswers := fun c s =>
  let ⟨t, next, outcome⟩ := exec_outcome c s
  ⟨t, next, outcome.pending⟩

/-- Settles O1: a step looks at the front of the queue. -/
theorem stepTakesFrontCommand : Obligations.StepTakesFrontCommand := by
  intro c rest s front
  unfold step
  rw [front]

/-! ## Invariants -/

/-- Every step keeps what passing time keeps, what the queue of commands does not show, and what every outcome of a
command keeps. -/
theorem step_keeps {P : State → Prop} (advance : ∀ {s : State} (ms : Nat), P s → P (s.advance ms))
    (pending : ∀ {s : State} (l : List Instr), P s → P { s with pending := l })
    (command : ∀ {c : Instr} {s t : State}, CommandOutcome c s t → P s → P t) :
    ∀ s t : State, P s → step s = .next t → P t := by
  intro s t sound next
  unfold step at next
  split at next
  · cases next
    exact advance 1 sound
  · rename_i c rest _
    obtain ⟨u, done, outcome⟩ := exec_outcome c { s with pending := rest }
    rw [done] at next
    cases next
    exact command outcome (pending rest sound)

/-! ### Ports -/

theorem NoticesOnly.portsSound {s t : State} (h : NoticesOnly s t) : s.PortsSound → t.PortsSound :=
  h.2 (fun q => q.portA.Sound ∧ q.portB.Sound) fun _ n sound => portsSound_notify sound n

/-- Handing over notices leaves each port's requests and their service. -/
theorem NoticesOnly.service {s t : State} (h : NoticesOnly s t) (p : Port) :
    (t.port p).receiveQueue = (s.port p).receiveQueue ∧ (t.port p).service = (s.port p).service := by
  let seen (m : Ports) : PortContext := ({ s with mpt := m } : State).port p
  have of_mpt (u : State) : seen u.mpt = u.port p := by cases p <;> rfl
  have kept := h.2 (fun m => (seen m).receiveQueue = (s.port p).receiveQueue ∧ (seen m).service = (s.port p).service)
    (fun u n ⟨queue, service⟩ => by
      rw [of_mpt] at queue service ⊢
      unfold State.notify
      rw [port_modPort]
      split
      · subst p; simpa using ⟨queue, service⟩
      · exact ⟨queue, service⟩) (by rw [of_mpt]; exact ⟨rfl, rfl⟩)
  rwa [of_mpt] at kept

theorem PortContext.service_of_handed {x : PortContext} {e : Nat} (h : x.service = .handed e) :
    x.service ≠ .unchecked := by
  rw [h]
  nofun

theorem send_portsSound {p : Port} {c : Instr} {s : State} {e : Nat} (taken : s.takenLevel p c = some e) {a : Answer}
    (notices : NoticesOnly s a.state) (sound : s.PortsSound) : (a.send p).PortsSound := by
  refine portsSound_modPort (notices.portsSound sound) p _ fun k => PortContext.answer_sound_of_service k ?_ _ _
  rw [(notices.service p).2]
  exact PortContext.service_of_handed (takenLevel_some taken).1

theorem beginSave_portsSound {p : Port} {c : Instr} {s : State} {e : Nat} (taken : s.takenLevel p c = some e)
    (sound : s.PortsSound) : (s.beginSave p).PortsSound := by
  unfold State.beginSave
  refine portsSound_modPort (s := { s with
    sst := { s.sst with image := { s.sst.image with valid := false }, save := .saving s.settings p } }) sound p _
    fun ⟨receive, transmit, serving⟩ => ⟨receive, transmit, fun _ => serving ?_⟩
  have service := (takenLevel_some taken).1
  cases p <;> exact PortContext.service_of_handed service

theorem CommandOutcome.portsSound {c : Instr} {s t : State} (h : CommandOutcome c s t) (sound : s.PortsSound) :
    t.PortsSound := by
  cases h with
  | idle => exact sound
  | event _ change => exact change.notices.portsSound sound
  | port _ p f keeps => exact portsSound_modPort sound p f (keeps _)
  | answered _ taken fits => exact send_portsSound taken fits.change.notices sound
  | saveBegun _ taken => exact beginSave_portsSound taken sound
  | @saved _ copy p =>
    refine portsSound_modPort (s := { s with sst := { s.sst with image := ⟨true, copy⟩, save := .idle } }) sound p _
      fun k => ?_
    split
    · rename_i awaiting
      exact PortContext.answer_sound_of_service k (by rw [awaiting]; nofun) _ _
    · exact k
  | startUp => exact ⟨PortContext.handNotice_sound PortContext.fresh_sound _, PortContext.fresh_sound⟩

/-- Settles O4: every outcome of a command keeps the bounds, and passing time leaves the ports. -/
theorem portQueuesStayBounded : Obligations.PortQueuesStayBounded :=
  step_keeps (fun _ => id) (fun _ => id) CommandOutcome.portsSound

/-! ### Receipts and intervals -/

theorem recordsSound_modPort {s : State} (p : Port) (f : PortContext → PortContext)
    (sound : s.RecordsSound ∧ s.CarriesSound) : (s.modPort p f).RecordsSound ∧ (s.modPort p f).CarriesSound := by
  unfold State.RecordsSound State.CarriesSound
  rw [modPort_rcq, modPort_ivm]
  exact sound

theorem startUp_recordsSound (cause : ResetCause) (image : StoredImage) (waiting : List Instr) :
    (startUp cause image waiting).RecordsSound ∧ (startUp cause image waiting).CarriesSound := by
  rw [startUp_eq]
  have receipts : ReceiptQueue.fresh.entries.length ≤ 8 ∧ ReceiptQueue.fresh.nextNumber ≠ 0 := by decide
  have intervals : IntervalMeter.fresh.pendingRecords.length ≤ 2 ∧ IntervalMeter.fresh.nextNumber ≠ 0 := by decide
  have carries : IntervalMeter.fresh.carries.All (· < 3600000) := by unfold Six.All; decide
  exact ⟨⟨receipts.1, receipts.2, intervals⟩, carries⟩

theorem CommandOutcome.recordsSound {c : Instr} {s t : State} (h : CommandOutcome c s t)
    (sound : s.RecordsSound ∧ s.CarriesSound) : t.RecordsSound ∧ t.CarriesSound := by
  cases h with
  | idle => exact sound
  | event _ change => exact change.records sound
  | port => exact recordsSound_modPort _ _ sound
  | answered _ _ fits => exact recordsSound_modPort _ _ (fits.change.records sound)
  | saveBegun => exact recordsSound_modPort _ _ sound
  | saved => exact recordsSound_modPort _ _ sound
  | startUp => exact startUp_recordsSound ..

/-- Settles O5: every outcome of a command keeps the bounds, and passing time moves the clock alone. -/
theorem recordsStayBounded : Obligations.RecordsStayBounded :=
  step_keeps (fun _ => id) (fun _ => id) CommandOutcome.recordsSound

/-! ### Links -/

theorem linksSound_modPort {s : State} (p : Port) (f : PortContext → PortContext) :
    s.LinksSound → (s.modPort p f).LinksSound :=
  linksSound_of_same (fun b => by rw [bay_modPort]) fun b => scheduled_modPort ..

/-- The default slots of a bay make it scheduled (R3). -/
theorem defaultSlots_scheduled (b : BayId) : (Masks.defaultSlots b).scheduled = true := by revert b; decide

theorem startUp_linksSound (cause : ResetCause) (image : StoredImage) (waiting : List Instr) :
    (startUp cause image waiting).LinksSound := by
  intro b
  have link : ((startUp cause image waiting).bay b).link =
      if image.load.enabled[b.val] then .scheduledWait else .absent := by
    rw [startUp_eq]
    simp [State.bay, readyToStart, Bay.fresh]
  have masks : (startUp cause image waiting).activeMasks b = expandMasks image.load.enabled[b.val] b ⟨0, 0⟩ := by
    rw [startUp_eq]
    simp [State.activeMasks, readyToStart]
  unfold State.scheduled
  rw [link, masks]
  cases image.load.enabled[b.val]
  · exact ⟨fun _ => rfl, fun _ => rfl⟩
  · exact ⟨nofun, fun unscheduled => by
      rw [show expandMasks true b ⟨0, 0⟩ = Masks.defaultSlots b from rfl, defaultSlots_scheduled] at unscheduled
      cases unscheduled⟩

theorem CommandOutcome.linksSound {c : Instr} {s t : State} (h : CommandOutcome c s t) (sound : s.LinksSound) :
    t.LinksSound := by
  cases h with
  | idle => exact sound
  | event _ change => exact change.linksSound sound
  | port => exact linksSound_modPort _ _ sound
  | answered _ _ fits => exact linksSound_modPort _ _ (fits.change.linksSound sound)
  | saveBegun => exact linksSound_modPort _ _ sound
  | saved => exact linksSound_modPort _ _ sound
  | startUp => exact startUp_linksSound _ _ _

/-- Settles O6: every outcome of a command keeps the agreement, and passing time leaves the bay link. -/
theorem linkStatesFollowTheSchedule : Obligations.LinkStatesFollowTheSchedule :=
  step_keeps (fun _ => id) (fun _ => id) CommandOutcome.linksSound

/-! ### Energy -/

theorem energySound_modPort {s : State} (p : Port) (f : PortContext → PortContext) (sound : s.EnergySound) :
    (s.modPort p f).EnergySound :=
  ⟨fun r => by rw [record_modPort]; exact sound.1 r, by rw [modPort_ale]; exact sound.2⟩

theorem startUp_energySound (cause : ResetCause) (image : StoredImage) (waiting : List Instr) :
    (startUp cause image waiting).EnergySound := by
  rw [startUp_eq]
  refine ⟨fun r => ?_, fun g current => absurd (show (none : Option GrantSet) = some g from current) nofun⟩
  have cleared : Sessions.fresh.records[r.val] = Record.cleared := Vector.getElem_replicate ..
  unfold State.record readyToStart
  dsimp only
  rw [cleared]
  exact SessionMoves.cleared_balanced

theorem CommandOutcome.energySound {c : Instr} {s t : State} (h : CommandOutcome c s t) (sound : s.EnergySound) :
    t.EnergySound := by
  cases h with
  | idle => exact sound
  | event _ change => exact change.energy sound
  | port => exact energySound_modPort _ _ sound
  | answered _ _ fits => exact energySound_modPort _ _ (fits.change.energy sound)
  | saveBegun => exact energySound_modPort _ _ sound
  | saved => exact energySound_modPort _ _ sound
  | startUp => exact startUp_energySound ..

/-- Settles O7: every outcome of a command keeps the balance, and passing time leaves the records and the shares. -/
theorem energyStaysBalanced : Obligations.EnergyStaysBalanced :=
  step_keeps (fun _ => id) (fun _ => id) CommandOutcome.energySound

/-! ### Level 0 -/

theorem levelZeroSound_modPort {s : State} (p : Port) (f : PortContext → PortContext) (sound : s.LevelZeroSound) :
    (s.modPort p f).LevelZeroSound := by
  unfold State.LevelZeroSound
  rw [modPort_sst]
  exact sound

/-- A value that is kept or brought to 0 keeps a ceiling at 0. -/
theorem restore_levelZero {t : Settings} (h : t.LevelZero) (id : SettingId) : (SettingId.restore t id).LevelZero := by
  unfold SettingId.restore
  cases id
  case ceilingA => exact h.imp (fun zero => by
    show clampNat 0 2 t.ceilingA = 0
    rw [zero]; rfl) id
  case ceilingB => exact h.imp id (fun zero => by
    show clampNat 0 2 t.ceilingB = 0
    rw [zero]; rfl)
  all_goals exact h

theorem load_levelZero {image : StoredImage} (h : image.valid = true → image.contents.LevelZero) :
    image.load.LevelZero := by
  unfold StoredImage.load
  split
  · rename_i valid
    unfold Settings.restored
    generalize allSettings = l
    have stored := h valid
    generalize image.contents = t at stored
    induction l generalizing t with
    | nil => exact stored
    | cons id l ih => exact ih _ (restore_levelZero stored id)
  · exact .inl rfl

theorem CommandOutcome.levelZeroSound {c : Instr} {s t : State} (h : CommandOutcome c s t)
    (sound : s.LevelZeroSound) : t.LevelZeroSound := by
  cases h with
  | idle => exact sound
  | event _ change => exact change.levelZero sound
  | port => exact levelZeroSound_modPort _ _ sound
  | answered _ _ fits => exact levelZeroSound_modPort _ _ (fits.change.levelZero sound)
  | saveBegun =>
    exact levelZeroSound_modPort _ _ ⟨sound.1, nofun, fun copy p saving => by cases saving; exact sound.1⟩
  | saved _ saving => exact levelZeroSound_modPort _ _ ⟨sound.1, fun _ => sound.2.2 _ _ saving, nofun⟩
  | startUp => rw [startUp_eq]; exact ⟨load_levelZero sound.2.1, sound.2.1, nofun⟩

/-- Settles O8: every outcome of a command keeps a ceiling at 0, and passing time leaves the settings. -/
theorem levelZeroStaysReachable : Obligations.LevelZeroStaysReachable :=
  step_keeps (fun _ => id) (fun _ => id) CommandOutcome.levelZeroSound

/-! ### Reset -/

/-- The reset state is the part after a power-on start-up from an image that was never written (R196–R198). -/
theorem reset_eq_startUp : State.reset = startUp .power ⟨false, Settings.defaults⟩ [] := by decide

/-- Settles O9: the reset state is a start-up's, and a start-up leaves a sound state. -/
theorem resetIsSound : Obligations.ResetIsSound := by
  unfold Obligations.ResetIsSound
  rw [reset_eq_startUp]
  exact ⟨⟨PortContext.handNotice_sound PortContext.fresh_sound _, PortContext.fresh_sound⟩,
    (startUp_recordsSound ..).1, (startUp_recordsSound ..).2, startUp_linksSound _ _ _, startUp_energySound ..,
    .inl rfl, nofun, nofun⟩

/-! ## Refusals -/

theorem sameButPort_modPort (s : State) (p : Port) (f : PortContext → PortContext) :
    s.SameButPort p (s.modPort p f) := by cases p <;> exact ⟨rfl, rfl⟩

/-- The reply of an answer to a request in service stands last at its port. -/
theorem send_lastReply {p : Port} {c : Instr} {s : State} {e : Nat} (taken : s.takenLevel p c = some e) {a : Answer}
    (notices : NoticesOnly s a.state) {r : Reply} (last : (a.send p).LastReply p r) : r.code = a.code := by
  obtain ⟨_, q, rest, queue, _⟩ := takenLevel_some taken
  obtain ⟨m, youngest, body⟩ := last
  unfold Answer.send at youngest
  rw [port_modPort_self, PortContext.answer_cons _ _ _ q rest ((notices.service p).1.trans queue)] at youngest
  obtain ⟨flag, appended⟩ := PortContext.append_getLast
    ((a.state.port p).replyMessage q a.code (rest.length + 1) a.contents) (a.state.port p)
  rw [show List.getLast? _ = _ from appended] at youngest
  cases youngest
  cases body
  rfl

/-- Settles O11: a request is answered, left in service by a save, or gone in a restart; a refusing answer leaves the
state it was given. -/
theorem refusalsLeaveTheState : Obligations.RefusalsLeaveTheState := by
  intro c p k body e s t r request taken next served last refused
  obtain ⟨u, done, outcome⟩ := exec_outcome c s
  rw [done] at next
  cases next
  cases outcome with
  | idle => exact ⟨rfl, rfl⟩
  | event noRequest => rw [noRequest] at request; cases request
  | port noRequest => rw [noRequest] at request; cases request
  | saved noRequest => rw [noRequest] at request; cases request
  | answered request' _ fits =>
    rw [request'] at request
    cases request
    have code := send_lastReply taken fits.change.notices last
    unfold Answer.send
    rw [fits.refusal (code ▸ refused)]
    exact sameButPort_modPort ..
  | saveBegun request' =>
    rw [request'] at request
    cases request
    unfold State.beginSave at served
    rw [port_modPort_self] at served
    cases served
  | startUp =>
    obtain ⟨m, youngest, body⟩ := last
    rw [startUp_eq] at youngest
    cases p <;> cases youngest
    cases body

end Sys2Proof.Machine
end

section
/-! PROOFS: time and the bodies of requests. Positions on the span of 65,536 days (R164), and the bytes of a
request read
back (R181, R188, R190). -/

namespace Sys2Proof.Machine

/-! ## Positions on the span -/

namespace SiteTime

theorem position_lt (t : SiteTime) : t.position < clockSpan := by
  have day := t.day.isLt
  have ms := t.ms.isLt
  unfold position clockSpan dayMs
  omega

theorem position_ofPosition (n : Nat) : (ofPosition n).position = n % clockSpan := by
  unfold position ofPosition clockSpan
  rw [Nat.mul_comm 65536, Nat.mod_mul, Nat.mul_comm dayMs, Nat.add_comm]

theorem ofPosition_position (t : SiteTime) : ofPosition t.position = t := by
  obtain ⟨⟨day, hday⟩, ⟨ms, hms⟩⟩ := t
  unfold ofPosition position dayMs
  congr 2
  · simp only; omega
  · simp only; omega

theorem ofPosition_mod (n : Nat) : ofPosition (n % clockSpan) = ofPosition n := by
  rw [← position_ofPosition, ofPosition_position]

theorem position_later (t : SiteTime) (ms : Nat) : (t.later ms).position = (t.position + ms) % clockSpan :=
  position_ofPosition _

theorem later_zero (t : SiteTime) : t.later 0 = t := by
  unfold later
  rw [Nat.add_zero, ofPosition_position]

theorem later_later (t : SiteTime) (a b : Nat) : (t.later a).later b = t.later (a + b) := by
  show ofPosition ((t.later a).position + b) = ofPosition (t.position + (a + b))
  rw [position_later, ← ofPosition_mod, Nat.mod_add_mod, ofPosition_mod, Nat.add_assoc]

/-- A time lies its duration after the earlier one. -/
theorem since_later (t : SiteTime) {ms : Nat} (h : ms < clockSpan) : SiteTime.since (t.later ms) t = ms := by
  have bound := t.position_lt
  unfold SiteTime.since
  rw [position_later]
  unfold clockSpan dayMs at *
  omega

/-- The earlier time lies the rest of the span after the later one. -/
theorem since_of_later (t : SiteTime) {ms : Nat} (positive : 0 < ms) (h : ms < clockSpan) :
    SiteTime.since t (t.later ms) = clockSpan - ms := by
  have bound := t.position_lt
  unfold SiteTime.since
  rw [position_later]
  unfold clockSpan dayMs at *
  omega

end SiteTime

/-! ## Idle steps -/

theorem advance_zero (s : State) : s.advance 0 = s := by
  have clock : s.ivm.clock.map (·.later 0) = s.ivm.clock := by
    cases s.ivm.clock <;> simp [SiteTime.later_zero]
  have overlay : (s.ale.overlay.map fun o => { o with remainingMs := o.remainingMs - 0 }) = s.ale.overlay := by
    cases s.ale.overlay <;> rfl
  unfold State.advance
  rw [clock, overlay]

theorem advance_advance (s : State) (a b : Nat) : (s.advance a).advance b = s.advance (a + b) := by
  have clock : (s.ivm.clock.map (·.later a)).map (·.later b) = s.ivm.clock.map (·.later (a + b)) := by
    cases s.ivm.clock <;> simp [SiteTime.later_later]
  have overlay : ((s.ale.overlay.map fun o => { o with remainingMs := o.remainingMs - a }).map
      fun o => { o with remainingMs := o.remainingMs - b }) =
        s.ale.overlay.map fun o => { o with remainingMs := o.remainingMs - (a + b) } := by
    cases s.ale.overlay <;> simp [Nat.sub_sub]
  unfold State.advance
  simp only [clock, overlay]

theorem step_idle {s : State} (h : s.pending = []) : step s = .next (s.advance 1) := by
  unfold step
  rw [h]

theorem run_succ_of_next {M : Host.Core} {k : Nat} {s t : M.State} (h : M.step s = .next t) :
    M.run (k + 1) s = M.run k t := by rw [Host.Core.run, h]

theorem run_idle (k : Nat) {s : State} (h : s.pending = []) : Host.Core.run Sys2Proof.core k s =
    .next (s.advance k) := by
  induction k generalizing s with
  | zero => rw [advance_zero]; rfl
  | succ k ih =>
    have first := run_succ_of_next (M := Sys2Proof.core) (k := k) (step_idle h)
    have rest : Host.Core.run Sys2Proof.core k (s.advance 1) = .next ((s.advance 1).advance k) := ih h
    rw [advance_advance, Nat.add_comm] at rest
    exact first.trans rest

/-- Settles O2: `k` idle steps add up, and a time and a later one lie a duration and the rest of the span apart. -/
theorem timePassesOnTheSpan : Obligations.TimePassesOnTheSpan := by
  refine ⟨fun k s idle => run_idle k idle, fun t ms => ⟨t.position_later ms, fun positive half => ?_⟩⟩
  have short : ms < clockSpan := by omega
  have there := t.since_later short
  have back := t.since_of_later positive short
  unfold SiteTime.reaches SiteTime.minus
  rw [there, back]
  refine ⟨decide_eq_true half, decide_eq_false ?_, if_pos half, ?_⟩
  · omega
  · rw [if_neg (by omega)]
    omega

/-! ## The bytes of a field -/

theorem word16_bytes (w : Word16) : word16 (w.extractLsb' 8 8) (w.extractLsb' 0 8) = w := by
  apply BitVec.eq_of_getLsbD_eq
  intro i inside
  simp only [word16, BitVec.getLsbD_append, BitVec.getLsbD_extractLsb']
  grind

theorem word32_bytes (w : Word32) :
    word32 (w.extractLsb' 24 8) (w.extractLsb' 16 8) (w.extractLsb' 8 8) (w.extractLsb' 0 8) = w := by
  apply BitVec.eq_of_getLsbD_eq
  intro i inside
  simp only [word32, BitVec.getLsbD_append, BitVec.getLsbD_extractLsb']
  grind

/-- A label is its eight bytes, the first character first (R118). -/
theorem label_bytes (l : Label) :
    l.extractLsb' 56 8 ++ l.extractLsb' 48 8 ++ l.extractLsb' 40 8 ++ l.extractLsb' 32 8 ++ l.extractLsb' 24 8 ++
      l.extractLsb' 16 8 ++ l.extractLsb' 8 8 ++ l.extractLsb' 0 8 = l := by
  apply BitVec.eq_of_getLsbD_eq
  intro i inside
  simp only [BitVec.getLsbD_append, BitVec.getLsbD_extractLsb']
  grind

/-! ## The bodies of requests -/

theorem requestKind_kindByte (k : RequestKind) : requestKind (kindByte k) = some k := by cases k <;> rfl

theorem requestOf_kindByte (p : Port) (k : RequestKind) (body : List Byte) :
    requestOf p (kindByte k) body = bodyOf p k body := by
  unfold requestOf
  rw [requestKind_kindByte]

/-- The body of a well-formed request spells it. -/
theorem bodyOf_requestBytes {c : Instr} {p : Port} {k : RequestKind} {body : List Byte} (fits : c.wellFormed = true)
    (request : requestBytes c = some (p, k, body)) : bodyOf p k body = some c := by
  cases c with
  | authorize q bay id plan cls caps energy cost =>
    cases request
    have named : ¬ id = 0#8 := by simpa [Instr.wellFormed, Instr.requestIdOk, Instr.entriesOk] using fits
    simp [bodyOf, bytes32, named, word32_bytes]
  | pageWrite q first count entries =>
    cases request
    have fit : 6 ≤ entries.length ∧ entries.length ≤ 72 := by
      simpa [Instr.wellFormed, Instr.requestIdOk, Instr.entriesOk] using fits
    simp [bodyOf, fit]
  | pageOpen q label level rate grace caps cap =>
    cases request
    simp only [bodyOf, labelBytes, bytes16, List.cons_append, List.nil_append, word16_bytes, label_bytes]
  | getStatus | getBay | getSession | getPlan | getSchedule | getInterval | tillVoucher | deny | stopSession
  | setClass | transfer | cancelTransfer | receiptAck | receiptGet | setReceiptBase | pagePublish | pageDiscard
  | planClear | stageSlots | commitSchedule | curtail | curtailEnd | setClock | intervalAck | setSetting
  | saveSettings | restart =>
    cases request
    simp [bodyOf, bytes16, bytes32, word16_bytes, word32_bytes]
  | _ => exact absurd request nofun

/-- A well-formed request has as many bytes as the request table allows its kind. -/
theorem bodyFits (c : Instr) : Laws.BodyFits.Statement c := by
  cases c with
  | getStatus => apply Laws.BodyFits.getStatus
  | getBay => apply Laws.BodyFits.getBay
  | getSession => apply Laws.BodyFits.getSession
  | getPlan => apply Laws.BodyFits.getPlan
  | getSchedule => apply Laws.BodyFits.getSchedule
  | getInterval => apply Laws.BodyFits.getInterval
  | authorize => apply Laws.BodyFits.authorize
  | tillVoucher => apply Laws.BodyFits.tillVoucher
  | deny => apply Laws.BodyFits.deny
  | stopSession => apply Laws.BodyFits.stopSession
  | setClass => apply Laws.BodyFits.setClass
  | transfer => apply Laws.BodyFits.transfer
  | cancelTransfer => apply Laws.BodyFits.cancelTransfer
  | receiptAck => apply Laws.BodyFits.receiptAck
  | receiptGet => apply Laws.BodyFits.receiptGet
  | setReceiptBase => apply Laws.BodyFits.setReceiptBase
  | pageOpen => apply Laws.BodyFits.pageOpen
  | pageWrite => apply Laws.BodyFits.pageWrite
  | pagePublish => apply Laws.BodyFits.pagePublish
  | pageDiscard => apply Laws.BodyFits.pageDiscard
  | planClear => apply Laws.BodyFits.planClear
  | stageSlots => apply Laws.BodyFits.stageSlots
  | commitSchedule => apply Laws.BodyFits.commitSchedule
  | curtail => apply Laws.BodyFits.curtail
  | curtailEnd => apply Laws.BodyFits.curtailEnd
  | setClock => apply Laws.BodyFits.setClock
  | intervalAck => apply Laws.BodyFits.intervalAck
  | setSetting => apply Laws.BodyFits.setSetting
  | saveSettings => apply Laws.BodyFits.saveSettings
  | restart => apply Laws.BodyFits.restart
  | saveComplete => apply Laws.BodyFits.saveComplete
  | powerOn => apply Laws.BodyFits.powerOn
  | resetPin => apply Laws.BodyFits.resetPin
  | requestArrival => apply Laws.BodyFits.requestArrival
  | messageDiscard => apply Laws.BodyFits.messageDiscard
  | interByteTimeout => apply Laws.BodyFits.interByteTimeout
  | serviceStart => apply Laws.BodyFits.serviceStart
  | transmitComplete => apply Laws.BodyFits.transmitComplete
  | sweepStart => apply Laws.BodyFits.sweepStart
  | grant => apply Laws.BodyFits.grant
  | status => apply Laws.BodyFits.status
  | meter => apply Laws.BodyFits.meter
  | discardedFrame => apply Laws.BodyFits.discardedFrame
  | authTimeout => apply Laws.BodyFits.authTimeout
  | resumeDeadlineExpiry => apply Laws.BodyFits.resumeDeadlineExpiry
  | transferTimeout => apply Laws.BodyFits.transferTimeout
  | curtailmentExpiry => apply Laws.BodyFits.curtailmentExpiry
  | poll => apply Laws.BodyFits.poll
  | canopySample => apply Laws.BodyFits.canopySample
  | batterySample => apply Laws.BodyFits.batterySample
  | meterSample => apply Laws.BodyFits.meterSample
  | canopyDiscard => apply Laws.BodyFits.canopyDiscard
  | noReply => apply Laws.BodyFits.noReply
  | cycleEnd => apply Laws.BodyFits.cycleEnd
  | allocation => apply Laws.BodyFits.allocation
  | measurementSetAtIvm => apply Laws.BodyFits.measurementSetAtIvm
  | boundaryClose => apply Laws.BodyFits.boundaryClose

/-- Settles O10: the body spells the request, and each kind's body fits its row. -/
theorem requestBodiesRoundTrip : Obligations.RequestBodiesRoundTrip := fun c p k body fits request =>
  ⟨(requestOf_kindByte p k body).trans (bodyOf_requestBytes fits request), bodyFits c fits p k body request⟩

end Sys2Proof.Machine
end

section
/-! PROOFS: authorisation and the single operations on sessions. The operands of AUTHORIZE, the record that is taken,
how a root opens, and what AUTHORIZE, a till voucher, STOP_SESSION, SET_CLASS and the expiries make of a record
(R77, R83–R86, R96–R98, R108). -/

namespace Sys2Proof.Machine

/-! ## Operands -/

theorem below_eq_none_iff {n x : Nat} : below n x = none ↔ n ≤ x := by
  unfold below
  split <;> simp_all

theorem val_of_below_eq_some {n x : Nat} {i : Fin n} (h : below n x = some i) : i.val = x := by
  unfold below at h
  split at h
  · exact (congrArg Fin.val (Option.some.inj h)).symm
  · cases h

theorem recordOperand_of_eq_val {x : Byte} {r : RecordId} (h : x.toNat = r.val) : recordOperand x = some r :=
  below_of_eq_val h

theorem recordOperand_of_gt {x : Byte} (h : 31 < x.toNat) : recordOperand x = none := below_of_le h

theorem planOperand_of_eq_val {x : Byte} {q : PlanId} (h : x.toNat = q.val) : planOperand x = some q :=
  below_of_eq_val h

theorem planOperand_of_gt {x : Byte} (h : 15 < x.toNat) : planOperand x = none := below_of_le h

theorem classOperand_of_eq_val {x : Byte} {c : Fin 3} (h : x.toNat = c.val) : classOperand x = some c :=
  below_of_eq_val h

theorem classOperand_of_gt {x : Byte} (h : 2 < x.toNat) : classOperand x = none := below_of_le h

theorem capsOperand_eq_none_iff (presence : Byte) (energy cost : Word32) :
    capsOperand presence energy cost = none ↔ 3 < presence.toNat ∨
      (presence.getLsbD 0 = true ∧ energy = 0) ∨ (presence.getLsbD 1 = true ∧ cost = 0) := by
  unfold capsOperand
  dsimp only
  split
  · simp_all
  · split
    · simp_all
    · split <;> simp_all

theorem caps_of_capsOperand_eq_some {presence : Byte} {energy cost : Word32} {caps : Option Nat × Option Nat}
    (h : capsOperand presence energy cost = some caps) :
    caps = (if presence.getLsbD 0 then some energy.toNat else none,
      if presence.getLsbD 1 then some cost.toNat else none) := by
  unfold capsOperand at h
  dsimp only at h
  split at h
  · cases h
  · split at h
    · cases h
    · split at h
      · cases h
      · exact (Option.some.inj h).symm

/-- The first check of AUTHORIZE fails exactly for an operand that names nothing and for caps that are refused. -/
theorem sessionOperands_eq_none_iff (bay plan cls presence : Byte) (energy cost : Word32) :
    sessionOperands bay plan cls presence energy cost = none ↔
      15 < bay.toNat ∨ 15 < plan.toNat ∨ 2 < cls.toNat ∨ 3 < presence.toNat ∨
        (presence.getLsbD 0 = true ∧ energy = 0) ∨ (presence.getLsbD 1 = true ∧ cost = 0) := by
  have bays : bayOperand bay = none ↔ 15 < bay.toNat := below_eq_none_iff
  have plans : planOperand plan = none ↔ 15 < plan.toNat := below_eq_none_iff
  have classes : classOperand cls = none ↔ 2 < cls.toNat := below_eq_none_iff
  rw [← bays, ← plans, ← classes, ← capsOperand_eq_none_iff]
  clear bays plans classes
  unfold sessionOperands
  cases bayOperand bay with
  | none => simp
  | some b =>
    cases planOperand plan with
    | none => simp
    | some q =>
      cases classOperand cls with
      | none => simp
      | some c => cases capsOperand presence energy cost <;> simp

theorem sessionOperands_eq_some {bay plan cls presence : Byte} {energy cost : Word32} {o : SessionOperands}
    (h : sessionOperands bay plan cls presence energy cost = some o) :
    o.bay.val = bay.toNat ∧ o.plan.val = plan.toNat ∧ o.cls.val = cls.toNat ∧
      o.energyCap = (if presence.getLsbD 0 then some energy.toNat else none) ∧
      o.costCap = (if presence.getLsbD 1 then some cost.toNat else none) := by
  unfold sessionOperands at h
  split at h
  · rename_i b pl c energyCap costCap hb hp hc hcaps
    cases h
    have caps := caps_of_capsOperand_eq_some hcaps
    cases caps
    exact ⟨val_of_below_eq_some hb, val_of_below_eq_some hp, val_of_below_eq_some hc, rfl, rfl⟩
  · cases h

/-! ## AUTHORIZE and the till voucher -/

section Authorize

variable {p : Port} {e : Nat} {bay requestId plan cls presence : Byte} {energy cost : Word32} {s : State}

theorem exec_authorize_taken (taken : s.takenLevel p (.authorize p bay requestId plan cls presence energy
    cost) = some e) :
    exec (.authorize p bay requestId plan cls presence energy cost) s =
      .next ((authorize e bay requestId plan cls presence energy cost s).send p) := serve_taken taken _

theorem exec_tillVoucher_taken (taken : s.takenLevel p (.tillVoucher p bay plan cls presence energy cost) = some e) :
    exec (.tillVoucher p bay plan cls presence energy cost) s =
      .next ((tillVoucher e bay plan cls presence energy cost s).send p) := serve_taken taken _

theorem authorize_of_bad (bad : sessionOperands bay plan cls presence energy cost = none ∨
    requestIdOperand requestId = none) (e : Nat) (s : State) :
    authorize e bay requestId plan cls presence energy cost s = .refuse .badArg s := by
  unfold authorize
  obtain bad | bad := bad
  · rw [bad]
  · rw [bad]
    cases sessionOperands bay plan cls presence energy cost <;> rfl

/-- AUTHORIZE with operands that name something: its answer turns on the record and on the use of the plan. -/
theorem authorize_of_operands {o : SessionOperands} {r : RecordId}
    (operands : sessionOperands bay plan cls presence energy cost = some o)
    (asked : requestIdOperand requestId = some r) (e : Nat) (s : State) :
    authorize e bay requestId plan cls presence energy cost s =
      if (s.record r).state ≠ .pending ∨ (s.record r).bay ≠ o.bay then .refuse .tooLate s
      else
        match s.planUse e o.plan with
        | .noPlan => .refuse .noPlan s
        | .denied => .refuse .denied s
        | .usable pg =>
          ⟨.ok, .authorised r (nextStart s.ssm.startCounter),
            s.openRoot r (s.rootRecord o (s.record r).token pg)⟩ := by
  unfold authorize
  rw [operands, asked] <;> rfl

theorem tillVoucher_of_bad (bad : sessionOperands bay plan cls presence energy cost = none) (e : Nat) (s : State) :
    tillVoucher e bay plan cls presence energy cost s = .refuse .badArg s := by
  unfold tillVoucher
  rw [bad]

end Authorize

theorem planUse_of_none {s : State} {q : PlanId} (h : s.plan q = none) (e : Nat) : s.planUse e q = .noPlan := by
  unfold State.planUse
  rw [h]

theorem planUse_of_level {s : State} {q : PlanId} {x : PlanEntry} {e : Nat} (h : s.plan q = some x)
    (above : x.useLevel < e ∨ (s.page x.page).useLevel < e) : s.planUse e q = .denied := by
  unfold State.planUse
  rw [h]
  exact if_pos above

theorem planUse_of_usable {s : State} {q : PlanId} {x : PlanEntry} {e : Nat} (h : s.plan q = some x)
    (below : ¬ (x.useLevel < e ∨ (s.page x.page).useLevel < e)) : s.planUse e q = .usable x.page := by
  unfold State.planUse
  rw [h]
  exact if_neg below

/-- Settles O13: what the operands name is what `below` finds, and AUTHORIZE and the till voucher check them first. -/
theorem sessionOperandsChecked : Obligations.SessionOperandsChecked := by
  intro bay plan cls presence energy cost bad isBad
  have none_iff := (sessionOperands_eq_none_iff bay plan cls presence energy cost).trans isBad.symm
  refine ⟨fun p e requestId s taken refused => ?_, fun p e s taken refused => ?_, none_iff,
    fun o => sessionOperands_eq_some⟩
  · rw [exec_authorize_taken taken, authorize_of_bad (refused.imp none_iff.mpr requestIdOperand_of_gt)]
  · rw [exec_tillVoucher_taken taken, tillVoucher_of_bad (none_iff.mpr refused)]

/-! ## The record that is taken -/

theorem mem_allRecords (r : RecordId) : r ∈ allRecords := by revert r; decide

/-- The record at each distance from the pointer in the order in which a FREE one is looked for. -/
theorem pointerOrder_getElem (pointer : RecordId) {i : Nat} (h : i < (allRecords.map fun k => pointer + k).length) :
    (allRecords.map fun k => pointer + k)[i] = pointer + ⟨i, h⟩ := by
  have inOrder : ∀ k : Fin 32, allRecords[k.val]'k.isLt = k := by decide
  rw [List.getElem_map]
  exact congrArg (pointer + ·) (inOrder ⟨i, h⟩)

/-- Settles O14: the search goes by the distance from the pointer, and every record stands at one. -/
theorem freeRecordIsTheFirstFromThePointer : Obligations.FreeRecordIsTheFirstFromThePointer := by
  intro s
  have back (q : RecordId) : s.ssm.allocPointer + (q - s.ssm.allocPointer) = q := add_sub_cancel ..
  refine ⟨fun r => ?_, ?_⟩
  · unfold State.freeRecord
    rw [List.find?_eq_some_iff_getElem]
    simp only [decide_eq_true_eq, pointerOrder_getElem, Bool.not_eq_true', decide_eq_false_iff_not]
    refine and_congr_right fun _ => ⟨?_, fun earlier => ?_⟩
    · rintro ⟨i, inside, rfl, earlier⟩ q nearer
      rw [add_sub_cancel_left] at nearer
      rw [← back q]
      exact earlier _ nearer
    · exact ⟨_, (r - s.ssm.allocPointer).isLt, back r, fun j nearer =>
        earlier _ (by rw [add_sub_cancel_left]; exact nearer)⟩
  · unfold State.freeRecord
    rw [List.find?_eq_none]
    refine ⟨fun none r => ?_, fun none r _ => by simpa using none r⟩
    simpa using none r (List.mem_map.mpr ⟨r - s.ssm.allocPointer, mem_allRecords _, back r⟩)

/-! ## A root opens -/

/-- A notice of a session goes to Port A, and its message holds the present time alone of the rest of the state. -/
theorem openRoot_eq (s : State) (r : RecordId) (g : Record) (pg : PageId) (pinned : g.page = some pg) :
    s.openRoot r g =
      { s.notify (.session (.started r g.bay g.plan g.cls (nextStart s.ssm.startCounter))) with
        ssm := { s.ssm with
          startCounter := nextStart s.ssm.startCounter
          records := put s.ssm.records r
            { g with startSeq := some (nextStart s.ssm.startCounter), startTime := s.now } }
        tfs := { s.tfs with pages := put s.tfs.pages pg { s.page pg with pins := (s.page pg).pins + 1 } }
        blc := { s.blc with bays := put s.blc.bays g.bay { s.bay g.bay with session := some r } } } := by
  unfold State.openRoot
  rw [pinned]
  rfl

/-- Settles O15: the operands name a record and a bay, and each check is one branch of the block. -/
theorem authorizeActivates : Obligations.AuthorizeActivates := by
  refine ⟨fun p e bay requestId plan cls presence energy cost s o r pg taken operands asked pending onBay usable => ?_,
    fun p e bay requestId plan cls presence energy cost s taken code refused => ?_⟩
  · rw [exec_authorize_taken taken, authorize_of_operands operands (requestIdOperand_of_eq_succ asked),
      if_neg (not_or.mpr ⟨not_not.mpr pending, not_not.mpr onBay⟩), usable]
    dsimp only
    rw [openRoot_eq _ _ _ pg rfl]
    rfl
  · rw [exec_authorize_taken taken]
    obtain ⟨rfl, bad⟩ | ⟨o, r, operands, asked, refused⟩ := refused
    · rw [authorize_of_bad (bad.imp id fun out => out.elim (fun zero => zero ▸ requestIdOperand_zero)
        requestIdOperand_of_gt)]
    · rw [authorize_of_operands operands (requestIdOperand_of_eq_succ asked)]
      obtain ⟨rfl, moved⟩ | ⟨pending, onBay, refused⟩ := refused
      · rw [if_pos moved]
      · rw [if_neg (not_or.mpr ⟨not_not.mpr pending, not_not.mpr onBay⟩)]
        obtain ⟨rfl, absent⟩ | ⟨rfl, x, named, above⟩ := refused
        · rw [planUse_of_none absent]
        · rw [planUse_of_level named above]

end Sys2Proof.Machine
end

section
/-! PROOFS: a till voucher, STOP_SESSION, SET_CLASS and the expiries of a record (R84, R86, R96–R98, R108). -/

namespace Sys2Proof.Machine

/-! ## The till voucher -/

@[simp] theorem put_put {α : Type} {n : Nat} (v : Vector α n) (i : Fin n) (x y : α) :
    put (put v i x) i y = put v i y := by simp [put]

theorem asks_iff (v : VehicleState) : v.asks = true ↔ v = .plugged ∨ v = .demanding := by cases v <;> decide

theorem not_reserved_iff (s : State) (b : BayId) : ¬ s.reserved b = true ↔ (s.bay b).reservedFor = none := by
  unfold State.reserved
  cases (s.bay b).reservedFor <;> simp

theorem freeRecord_eq_none {s : State} (h : ∀ r : RecordId, (s.record r).state ≠ .free) : s.freeRecord = none :=
  (freeRecordIsTheFirstFromThePointer s).2.mpr h

/-- A root that opens in a record just taken. -/
theorem takeRecord_openRoot_eq (s : State) (r : RecordId) (g : Record) (pg : PageId) (pinned : g.page = some pg) :
    (s.takeRecord r Record.cleared).openRoot r g =
      { s.notify (.session (.started r g.bay g.plan g.cls (nextStart s.ssm.startCounter))) with
        ssm := { s.ssm with
          startCounter := nextStart s.ssm.startCounter
          allocPointer := r + 1
          records := put s.ssm.records r
            { g with startSeq := some (nextStart s.ssm.startCounter), startTime := s.now } }
        tfs := { s.tfs with pages := put s.tfs.pages pg { s.page pg with pins := (s.page pg).pins + 1 } }
        blc := { s.blc with bays := put s.blc.bays g.bay { s.bay g.bay with session := some r } } } := by
  rw [openRoot_eq _ _ _ pg pinned]
  unfold State.takeRecord State.modRecord
  dsimp only
  rw [put_put]
  rfl

section TillVoucher

variable {e : Nat} {bay plan cls presence : Byte} {energy cost : Word32} {s : State} {o : SessionOperands}

/-- A till voucher whose operands name something and whose bay is there and open: its answer turns on the use of the
plan and on a FREE record. -/
theorem tillVoucher_of_open (operands : sessionOperands bay plan cls presence energy cost = some o) (e : Nat)
    (set : s.now ≠ none) (link : (s.bay o.bay).link = .online)
    (asks : (s.bay o.bay).lastStatus.vehicle = .plugged ∨ (s.bay o.bay).lastStatus.vehicle = .demanding)
    (idle : (s.bay o.bay).session = none) (unreserved : (s.bay o.bay).reservedFor = none) :
    tillVoucher e bay plan cls presence energy cost s =
      match s.planUse e o.plan with
      | .noPlan => .refuse .noPlan s
      | .denied => .refuse .denied s
      | .usable pg =>
        match s.freeRecord with
        | none => .refuse .noContext s
        | some r =>
          ⟨.ok, .authorised r (nextStart s.ssm.startCounter),
            (((s.takeRecord r Record.cleared).openRoot r
              (s.rootRecord o (s.bay o.bay).lastStatus.token pg)).setEndedLatch o.bay false).setNoContextMark o.bay
                false⟩ := by
  have clock : ¬ s.now.isNone = true := by simpa using set
  have there : ¬ ((s.bay o.bay).link ≠ .online ∨ (!(s.bay o.bay).lastStatus.vehicle.asks) = true) := by
    simp [link, (asks_iff _).mpr asks]
  have free : ¬ ((s.bay o.bay).session.isSome = true ∨ s.reserved o.bay = true) := by
    simp [idle, State.reserved, unreserved]
  unfold tillVoucher
  rw [operands]
  dsimp only
  rw [if_neg clock, if_neg there]
  exact if_neg free

theorem tillVoucher_of_unset (operands : sessionOperands bay plan cls presence energy cost = some o) (e : Nat)
    (unset : s.now = none) : tillVoucher e bay plan cls presence energy cost s = .refuse .clockUnset s := by
  unfold tillVoucher
  rw [operands]
  exact if_pos (by rw [unset]; rfl)

theorem tillVoucher_of_absent (operands : sessionOperands bay plan cls presence energy cost = some o) (e : Nat)
    (set : s.now ≠ none) (absent : ¬ ((s.bay o.bay).link = .online ∧
      ((s.bay o.bay).lastStatus.vehicle = .plugged ∨ (s.bay o.bay).lastStatus.vehicle = .demanding))) :
    tillVoucher e bay plan cls presence energy cost s = .refuse .noVehicle s := by
  rw [← asks_iff] at absent
  unfold tillVoucher
  rw [operands]
  dsimp only
  rw [if_neg (by simpa using set), if_pos (by simpa [imp_iff_not_or] using absent)]

theorem tillVoucher_of_busy (operands : sessionOperands bay plan cls presence energy cost = some o) (e : Nat)
    (set : s.now ≠ none) (there : (s.bay o.bay).link = .online ∧
      ((s.bay o.bay).lastStatus.vehicle = .plugged ∨ (s.bay o.bay).lastStatus.vehicle = .demanding))
    (busy : ¬ ((s.bay o.bay).session = none ∧ (s.bay o.bay).reservedFor = none)) :
    tillVoucher e bay plan cls presence energy cost s = .refuse .busy s := by
  rw [← asks_iff] at there
  rw [← not_reserved_iff, not_and_or, not_not, ← ne_eq, Option.ne_none_iff_isSome] at busy
  unfold tillVoucher
  rw [operands]
  dsimp only
  rw [if_neg (by simpa using set), if_neg (by simp [there]), if_pos busy]

end TillVoucher

/-- Settles O16: each check is one branch of the block, and the root opens in the record that is taken. -/
theorem tillVoucherOpens : Obligations.TillVoucherOpens := by
  refine ⟨fun p e bay plan cls presence energy cost s o r pg taken operands set link asks idle unreserved usable free =>
    ?_, fun p e bay plan cls presence energy cost s c refused isCommand taken isRefused => ?_⟩
  · rw [exec_tillVoucher_taken taken, tillVoucher_of_open operands e set link asks idle unreserved, usable, free]
    dsimp only
    rw [takeRecord_openRoot_eq _ _ _ pg rfl]
    rfl
  · subst isCommand
    simp only [isRefused, exec_tillVoucher_taken taken]
    refine ⟨fun bad => ?_, fun o here isOpen operands isHere isOpen_iff => ⟨fun unset => ?_, fun set absent => ?_,
      fun set there busy => ?_, fun set there free => ?_⟩⟩
    · rw [tillVoucher_of_bad bad]
    · rw [tillVoucher_of_unset operands e unset]
    · rw [tillVoucher_of_absent operands e set (isHere.not.mp absent)]
    · rw [tillVoucher_of_busy operands e set (isHere.mp there) (isOpen_iff.not.mp busy)]
    · obtain ⟨link, asks⟩ := isHere.mp there
      obtain ⟨idle, unreserved⟩ := isOpen_iff.mp free
      rw [tillVoucher_of_open operands e set link asks idle unreserved]
      refine ⟨fun absent => ?_, fun x named => ⟨fun above => ?_, fun plan page none => ?_⟩⟩
      · rw [planUse_of_none absent]
      · rw [planUse_of_level named above]
      · rw [planUse_of_usable named (by omega), freeRecord_eq_none none]

/-! ## Running heads -/

theorem isRunning_iff (x : RecordState) : x.isRunning = true ↔ x = .active ∨ x = .suspended ∨ x = .transferring := by
  cases x <;> decide

theorem stopSession_of_record {x : Byte} {r : RecordId} (h : x.toNat = r.val) (s : State) :
    stopSession x s = if (s.record r).state.isRunning then ⟨.ok, .nothing, s.closeByTable r .stopped⟩
      else .refuse .notActive s := by
  unfold stopSession
  rw [recordOperand_of_eq_val h]

theorem stopSession_of_gt {x : Byte} (h : 31 < x.toNat) (s : State) : stopSession x s = .refuse .badArg s := by
  unfold stopSession
  rw [recordOperand_of_gt h]

/-- A close with reason STOPPED sets the ended-latch whatever the vehicle (R80). -/
theorem closeChain_stopped (s : State) (r : RecordId) (plugged : Bool) :
    s.closeChain r .stopped plugged = s.closeChain r .stopped true := rfl

theorem setClass_of_operands {x y : Byte} {r : RecordId} {c : Fin 3} (named : x.toNat = r.val)
    (given : y.toNat = c.val) (s : State) :
    setClass x y s = if (s.record r).state.isRunning then ⟨.ok, .nothing, s.modRecord r fun g => { g with cls := c }⟩
      else .refuse .notActive s := by
  unfold setClass
  rw [recordOperand_of_eq_val named, classOperand_of_eq_val given]

theorem setClass_of_gt {x y : Byte} (h : 31 < x.toNat ∨ 2 < y.toNat) (s : State) :
    setClass x y s = .refuse .badArg s := by
  unfold setClass
  obtain h | h := h
  · rw [recordOperand_of_gt h]
  · rw [classOperand_of_gt h]
    cases recordOperand x <;> rfl

/-- Settles O20: each block asks for the operands and then for a running head. -/
theorem runningHeadsStopAndChangeClass : Obligations.RunningHeadsStopAndChangeClass := by
  intro p e x y s runs isRunning
  have running (r : RecordId) : (s.record r).state.isRunning = true ↔ runs r :=
    (isRunning_iff _).trans (isRunning r).symm
  constructor
  · intro taken
    rw [show exec (.stopSession p x) s = .next ((stopSession x s).send p) from serve_taken taken _]
    refine ⟨fun r named => ?_, fun above => by rw [stopSession_of_gt above]⟩
    rw [stopSession_of_record named]
    refine ⟨fun h => ?_, fun h => by rw [if_neg ((running r).not.mpr h)]⟩
    rw [if_pos ((running r).mpr h)]
    exact congrArg (fun t => Host.Outcome.next ((Answer.mk .ok .nothing t).send p)) (closeChain_stopped ..)
  · intro taken
    rw [show exec (.setClass p x y) s = .next ((setClass x y s).send p) from serve_taken taken _]
    refine ⟨fun r c named given => ?_, fun above => by rw [setClass_of_gt above]⟩
    rw [setClass_of_operands named given]
    exact ⟨fun h => by rw [if_pos ((running r).mpr h)]; rfl, fun h => by rw [if_neg ((running r).not.mpr h)]⟩

/-! ## Expiries -/

theorem expired_of_some {s : State} {now t : SiteTime} (set : s.now = some now) : s.expired (some t) =
    now.reaches t := by
  unfold State.expired
  rw [set]

/-- Settles O18: each expiry asks for the record's state and for its deadline. -/
theorem expiriesFreeOrClose : Obligations.ExpiriesFreeOrClose := by
  intro r now t s set
  refine ⟨fun deadline => ?_, fun deadline => ?_, fun deadline => ?_⟩
  · show (_ → _ → execAuthTimeout r s = _) ∧ (_ → execAuthTimeout r s = _)
    unfold execAuthTimeout
    dsimp only
    rw [deadline, expired_of_some set]
    exact ⟨fun pending reached => if_pos ⟨pending, reached⟩, fun early => if_neg early⟩
  · show (_ → _ → execResumeDeadlineExpiry r s = _) ∧ (_ → execResumeDeadlineExpiry r s = _)
    unfold execResumeDeadlineExpiry
    rw [deadline, expired_of_some set]
    exact ⟨fun suspended reached => if_pos ⟨suspended, reached⟩, fun early => if_neg early⟩
  · show (_ → _ → execTransferTimeout r s = _) ∧ (_ → execTransferTimeout r s = _)
    unfold execTransferTimeout
    rw [deadline, expired_of_some set]
    exact ⟨fun moving reached => if_pos ⟨moving, reached⟩, fun early => if_neg early⟩

end Sys2Proof.Machine
end

section
/-! PROOFS: chains. The members of a chain laid from its root to its head, what a chain's figures depend on, and what
its receipt holds (R78, R101, R140–R145, R151–R153). -/

namespace Sys2Proof.Machine

/-! ## Members -/

theorem head_mem_backLinks (s : State) (fuel : Nat) (r : RecordId) : r ∈ s.backLinks fuel r := by
  cases fuel with
  | zero => exact List.mem_singleton.mpr rfl
  | succ fuel =>
    unfold State.backLinks
    split
    · exact List.mem_singleton.mpr rfl
    · exact List.mem_cons_self ..

theorem head_mem_chain (s : State) (head : RecordId) : head ∈ s.chain head :=
  List.mem_reverse.mpr (head_mem_backLinks ..)

/-- The back-links followed from the last of a run of members, each linked back to the one before it. -/
theorem backLinks_of_linked (s : State) : ∀ (l : List RecordId) (r : RecordId) (fuel : Nat), l.length ≤ fuel →
    (∀ last, (r :: l).getLast? = some last → (s.record last).backLink = none) →
    (∀ (i : Nat) (a b : RecordId), (r :: l)[i]? = some a → (r :: l)[i + 1]? = some b →
      (s.record a).backLink = some b) →
    s.backLinks fuel r = r :: l
  | [], r, fuel, _, root, _ => by
    cases fuel with
    | zero => rfl
    | succ fuel =>
      unfold State.backLinks
      rw [root r rfl]
  | q :: l, r, 0, short, _, _ => absurd short (Nat.not_succ_le_zero _)
  | q :: l, r, fuel + 1, short, root, linked => by
    unfold State.backLinks
    rw [linked 0 r q rfl rfl]
    refine congrArg (r :: ·) (backLinks_of_linked s l q fuel (Nat.le_of_succ_le_succ short) (fun last h => ?_)
      fun i a b ha hb => linked (i + 1) a b ha hb)
    exact root last (by rw [List.getLast?_cons_cons]; exact h)

/-- A chain laid from its root to its head is found from the head by the back-links (R101). -/
theorem chain_of_isChain {s : State} {members : List RecordId} {head : RecordId} (h : s.IsChain members head) :
    s.chain head = members := by
  obtain ⟨short, last, root, linked⟩ := h
  obtain ⟨l, rfl⟩ : ∃ l, members = (head :: l).reverse := by
    obtain ⟨l, rfl⟩ := List.getLast?_eq_some_iff.mp last
    exact ⟨l.reverse, by simp⟩
  unfold State.chain
  rw [backLinks_of_linked s l head 31 (by rw [List.length_reverse, List.length_cons] at short; omega)
    (fun r h => root r (by rwa [List.head?_reverse])) ?_]
  intro i a b ha hb
  have inside : i + 1 < (head :: l).length := (List.getElem?_eq_some_iff.mp hb).1
  refine linked ((head :: l).length - 1 - (i + 1)) b a ?_ ?_
  · rw [List.getElem?_reverse (by omega), ← hb]
    congr 1; omega
  · rw [List.getElem?_reverse (by omega), ← ha]
    congr 1; omega

theorem root_of_isChain {s : State} {members : List RecordId} {root head : RecordId} (h : s.IsChain members head)
    (first : members.head? = some root) : s.root head = root := by
  unfold State.root
  rw [chain_of_isChain h, List.headD_eq_head?_getD, first]
  rfl

theorem rootPage_of_isChain {s : State} {members : List RecordId} {root head : RecordId} {pg : PageId}
    (h : s.IsChain members head) (first : members.head? = some root) (pinned : (s.record root).page = some pg) :
    s.rootPage head = s.page pg := by
  unfold State.rootPage State.pinnedPage
  rw [root_of_isChain h first, pinned]

theorem chainMetered_of_isChain {s : State} {members : List RecordId} {head : RecordId} (h : s.IsChain members head) :
    s.chainMetered head = (members.map fun q => (s.record q).metered).sum := by
  unfold State.chainMetered
  rw [chain_of_isChain h]

theorem chainIdleMs_of_isChain {s : State} {members : List RecordId} {head : RecordId} (h : s.IsChain members head) :
    s.chainIdleMs head = (members.map fun q => (s.record q).idleMs).sum := by
  unfold State.chainIdleMs
  rw [chain_of_isChain h]

theorem estimate_of_isChain {s : State} {members : List RecordId} {head : RecordId} (h : s.IsChain members head) :
    s.estimate head = (members.map fun q => (s.record q).cost).sum + s.idleFee head := by
  unfold State.estimate
  rw [chain_of_isChain h]

theorem idleFee_of_isChain {s : State} {members : List RecordId} {root head : RecordId} {pg : PageId}
    (h : s.IsChain members head) (first : members.head? = some root) (pinned : (s.record root).page = some pg) :
    s.idleFee head = (s.page pg).idleFee ((members.map fun q => (s.record q).idleMs).sum / 1000) := by
  unfold State.idleFee State.idleSeconds
  rw [rootPage_of_isChain h first pinned, chainIdleMs_of_isChain h]

/-! ## Costs and fees -/

/-- The sum over members of the sum over their segments is the sum over all their segments. -/
theorem sum_flatMap {α : Type} (f : α → List Nat) (l : List α) : (l.flatMap f).sum =
    (l.map fun a => (f a).sum).sum := by
  induction l with
  | nil => rfl
  | cons a l ih => simp [ih]

theorem segment_cost_mono (g : Segment) (e : Nat) (x : Shares) : g.cost ≤ (g.add e x).cost := by
  unfold Segment.cost Segment.add
  exact Nat.div_le_div_right (by dsimp only; gcongr <;> omega)

/-- Settles O30: a cost is a rounded quotient, a fee a product with a cap, and a chain's figures are sums over its
members. -/
theorem costsAndFees : Obligations.CostsAndFees := by
  refine ⟨fun g n isCost => ?_, fun pg seconds periods low high => ?_, fun s members root head pg chain first pinned =>
    ⟨chain_of_isChain chain, chainMetered_of_isChain chain, ?_⟩⟩
  · have cost : g.cost = (n + 50000000) / 100000000 := by rw [isCost]; rfl
    refine ⟨by omega, by omega, segment_cost_mono g⟩
  · have whole : (seconds - 60 * pg.idleGrace) / 600 = periods := by omega
    unfold Page.idleFee
    rw [whole]
    refine ⟨fun none => by rw [none], fun cap present => ?_⟩
    rw [present]
    dsimp only
    split <;> omega
  · rw [estimate_of_isChain chain, idleFee_of_isChain chain first pinned, List.map_flatMap, sum_flatMap]
    rfl

/-! ## Receipts -/

theorem chainLines_eq (s : State) (l : List RecordId) (index : Nat) :
    s.chainLines index l = (l.zipIdx index).flatMap fun q => memberLines q.2 (s.record q.1) := by
  induction l generalizing index with
  | nil => rfl
  | cons r l ih =>
    unfold State.chainLines
    rw [ih, List.zipIdx_cons, List.flatMap_cons]

/-- A sum over the lines of members is a sum over members of what their segments give. -/
theorem sum_chainLines (s : State) (f : ReceiptLine → Nat) (k : Segment → Nat)
    (same : ∀ index g, f ⟨index, g.firstUse, g.triple, g.solar, g.battery, g.grid, g.cost⟩ = k g)
    (l : List RecordId) (index : Nat) :
    ((s.chainLines index l).map f).sum = (l.map fun r => ((s.record r).segments.map k).sum).sum := by
  induction l generalizing index with
  | nil => rfl
  | cons r l ih =>
    unfold State.chainLines memberLines
    rw [List.map_append, List.sum_append, ih, List.map_cons, List.sum_cons, List.map_map]
    simp only [Function.comp_def, same]

/-- The nil line of a chain that holds no segment adds nothing to the totals (R152). -/
theorem sum_receiptLines (s : State) (f : ReceiptLine → Nat) (k : Segment → Nat)
    (same : ∀ index g, f ⟨index, g.firstUse, g.triple, g.solar, g.battery, g.grid, g.cost⟩ = k g) (head : RecordId)
    (nil : f (s.nilLine head) = 0) :
    ((s.receiptLines head).map f).sum = ((s.chain head).map fun r => ((s.record r).segments.map k).sum).sum := by
  rw [← sum_chainLines s f k same _ 0]
  unfold State.receiptLines
  split
  · rename_i none
    rw [none]
    simp [nil]
  · rfl

theorem receiptLines_of_segments {s : State} {members : List RecordId} {head : RecordId}
    (chain : s.IsChain members head)
    (some : ∃ q ∈ members, (s.record q).segments ≠ []) :
    s.receiptLines head = members.zipIdx.flatMap fun q => memberLines q.2 (s.record q.1) := by
  unfold State.receiptLines
  rw [chain_of_isChain chain, chainLines_eq]
  split
  · rename_i none
    obtain ⟨q, mem, filled⟩ := some
    obtain ⟨i, inside, rfl⟩ := List.mem_iff_getElem.mp mem
    have empty := List.flatMap_eq_nil_iff.mp none (members[i], i) (by simp [List.mem_zipIdx_iff_getElem?])
    exact absurd (List.map_eq_nil_iff.mp empty) filled
  · rfl

theorem receiptLines_of_none {s : State} {members : List RecordId} {head : RecordId} (chain : s.IsChain members head)
    (none : ∀ q ∈ members, (s.record q).segments = []) : s.receiptLines head = [s.nilLine head] := by
  unfold State.receiptLines
  rw [chain_of_isChain chain, chainLines_eq, List.flatMap_eq_nil_iff.mpr]
  intro q mem
  unfold memberLines
  rw [none q.1 (List.fst_mem_of_mem_zipIdx mem), List.map_nil]

/-- The totals of a receipt are its chain's running cost estimate and 1000 mWh for each metered Wh (R139, R145). -/
theorem totalCents_eq_estimate (s : State) (number : Word32) (head : RecordId) :
    (s.buildReceipt number head).totalCents = s.estimate head := by
  have lines := sum_receiptLines s (fun l => l.cost) Segment.cost (fun _ _ => rfl) head rfl
  have idle : (match s.idleLine head with
      | some i => i.fee
      | none => 0) = s.idleFee head := by
    unfold State.idleLine
    split
    · rename_i i taken
      split at taken
      · cases taken; rfl
      · cases taken
    · rename_i taken
      split at taken
      · cases taken
      · rename_i none
        have zero : s.chainIdleMs head = 0 := by omega
        unfold State.idleFee State.idleSeconds Page.idleFee
        rw [zero]
        cases (s.rootPage head).idleCap <;> simp
  exact congrArg₂ (· + ·) lines idle

theorem totalMWh_of_balanced {s : State} {members : List RecordId} {head : RecordId} (chain : s.IsChain members head)
    (balanced : ∀ q ∈ members, (s.record q).Balanced) (number : Word32) :
    (s.buildReceipt number head).totalMWh = 1000 * s.chainMetered head := by
  have lines := sum_receiptLines s (fun l => l.solar + l.battery + l.grid) Segment.total (fun _ _ => rfl) head rfl
  rw [chainMetered_of_isChain chain]
  rw [chain_of_isChain chain] at lines
  refine Eq.trans lines ?_
  rw [← List.sum_map_mul_left]
  exact congrArg List.sum (List.map_congr_left balanced)

/-- Settles O24: the receipt is built of the head, the root and the members that the back-links give. -/
theorem receiptsAreBuiltFromTheChain : Obligations.ReceiptsAreBuiltFromTheChain := by
  rintro s number seq members root head pg plan reason ms x chain first pinned started planned ended isMs rfl
  have isRoot := root_of_isChain chain first
  have idleMs : s.chainIdleMs head = ms := by rw [isMs, chainIdleMs_of_isChain chain]
  have fee := idleFee_of_isChain chain first pinned
  rw [← isMs] at fee
  refine ⟨?_, receiptLines_of_segments chain, fun t slot none began isSlot => ?_, fun zero => ?_, fun positive => ?_,
    rfl, ?_, totalCents_eq_estimate .., fun balanced => totalMWh_of_balanced chain balanced number⟩
  · unfold State.buildReceipt State.pinnedPage
    dsimp only
    rw [isRoot, pinned, started, planned, ended]
    rfl
  · refine (receiptLines_of_none chain none).trans ?_
    obtain rfl : t.tariffSlot = slot := Fin.ext isSlot.symm
    unfold State.nilLine State.pinnedPage Page.priceAt
    dsimp only
    rw [isRoot, pinned, began]
  · show s.idleLine head = none
    unfold State.idleLine
    rw [if_neg (by omega)]
  · show s.idleLine head = _
    unfold State.idleLine State.idleSeconds
    rw [if_pos (by omega), idleMs, fee, Nat.div_div_eq_div_mul]
  · unfold State.buildReceipt
    dsimp only
    cases s.idleLine head <;> rfl

end Sys2Proof.Machine
end

section
/-! PROOFS: closing a chain. What a chain's figures depend on, what a run of records changes, and a close as one update
of the part (R80, R110, R114, R149, R150). -/

namespace Sys2Proof.Machine

/-! ## What the figures of a chain depend on -/

theorem backLinks_congr {s t : State} (links : ∀ q, (t.record q).backLink = (s.record q).backLink) (fuel : Nat)
    (r : RecordId) : t.backLinks fuel r = s.backLinks fuel r := by
  induction fuel generalizing r with
  | zero => rfl
  | succ fuel ih =>
    unfold State.backLinks
    rw [links]
    split
    · rfl
    · rw [ih]

theorem chain_congr {s t : State} (links : ∀ q, (t.record q).backLink = (s.record q).backLink) (head : RecordId) :
    t.chain head = s.chain head := congrArg List.reverse (backLinks_congr links 31 head)

theorem chainMetered_congr {s t : State} (links : ∀ q, (t.record q).backLink = (s.record q).backLink)
    (metered : ∀ q, (t.record q).metered = (s.record q).metered) (head : RecordId) :
    t.chainMetered head = s.chainMetered head := by
  unfold State.chainMetered
  rw [chain_congr links]
  simp only [metered]

theorem chainLines_congr {s t : State} (segments : ∀ q, (t.record q).segments = (s.record q).segments)
    (l : List RecordId) (index : Nat) : t.chainLines index l = s.chainLines index l := by
  induction l generalizing index with
  | nil => rfl
  | cons r l ih =>
    unfold State.chainLines memberLines
    rw [segments, ih]

/-- A receipt does not show the states of the records of its chain. -/
theorem buildReceipt_congr {s t : State} (records : ∀ q, ∃ x, t.record q = { s.record q with state := x })
    (pages : ∀ pg, t.page pg = s.page pg) (now : t.now = s.now) (number : Word32) (head : RecordId) :
    t.buildReceipt number head = s.buildReceipt number head := by
  have field {α : Type} (f : Record → α) (blind : ∀ g x, f { g with state := x } = f g) (q : RecordId) :
      f (t.record q) = f (s.record q) := by
    obtain ⟨x, changed⟩ := records q
    rw [changed, blind]
  have chain := chain_congr (field (·.backLink) fun _ _ => rfl)
  have root : t.root head = s.root head := by unfold State.root; rw [chain]
  have pinned (q : RecordId) : t.pinnedPage (t.record q) = s.pinnedPage (s.record q) := by
    unfold State.pinnedPage
    rw [field (·.page) (fun _ _ => rfl) q]
    simp only [pages]
  have idleMs : t.chainIdleMs head = s.chainIdleMs head := by
    unfold State.chainIdleMs
    rw [chain]
    simp only [field (·.idleMs) fun _ _ => rfl]
  have idleLine : t.idleLine head = s.idleLine head := by
    unfold State.idleLine State.idleFee State.rootPage State.idleSeconds
    rw [idleMs, root, pinned]
  have nilLine : t.nilLine head = s.nilLine head := by
    unfold State.nilLine
    dsimp only
    rw [root, pinned, field (·.startTime) fun _ _ => rfl]
  have lines : t.receiptLines head = s.receiptLines head := by
    unfold State.receiptLines
    rw [chain, chainLines_congr (field (·.segments) fun _ _ => rfl), nilLine]
  unfold State.buildReceipt
  dsimp only
  rw [lines, idleLine, root, pinned, now, field (·.token) (fun _ _ => rfl) head, field (·.plan) (fun _ _ => rfl) head,
    field (·.cls) (fun _ _ => rfl) head, field (·.bay) (fun _ _ => rfl) head, field (·.endTime) (fun _ _ => rfl) head,
    field (·.endReason) (fun _ _ => rfl) head, field (·.depth) (fun _ _ => rfl) head,
    field (·.startSeq) (fun _ _ => rfl), field (·.bay) (fun _ _ => rfl) (s.root head),
    field (·.startTime) (fun _ _ => rfl)]

/-! ## A run of records -/

theorem setMembers_cons (st : RecordState) (r : RecordId) (l : List RecordId) (s : State) :
    s.setMembers st (r :: l) = (s.modRecord r fun g => { g with state := st }).setMembers st l := rfl

theorem record_setMembers (st : RecordState) (l : List RecordId) (s : State) (q : RecordId) :
    (s.setMembers st l).record q = if q ∈ l then { s.record q with state := st } else s.record q := by
  induction l generalizing s with
  | nil => rfl
  | cons r l ih =>
    rw [setMembers_cons, ih, record_modRecord]
    by_cases here : q = r
    · subst here
      simp
    · simp [here]

theorem setMembers_frame (st : RecordState) (l : List RecordId) (s : State) :
    s.setMembers st l = { s with ssm := { s.ssm with records := (s.setMembers st l).ssm.records } } := by
  induction l generalizing s with
  | nil => rfl
  | cons r l ih => rw [setMembers_cons, ih]; rfl

/-! ## Notices -/

/-- What a notice does to the ports depends on the ports, the settings and the clock alone. -/
theorem notify_mpt_congr {s t : State} (ports : t.mpt = s.mpt) (settings : t.settings = s.settings)
    (now : t.now = s.now) (n : Notice) : (t.notify n).mpt = (s.notify n).mpt := by
  unfold State.notify State.modPort
  rw [settings, now, ports]
  cases n.port s.settings <;> rfl

theorem notify_frame (s : State) (n : Notice) : s.notify n = { s with mpt := (s.notify n).mpt } := by
  unfold State.notify
  cases n.port s.settings <;> rfl

/-! ## The end of a chain's head -/

/-- The records and the bay of a chain's head as they stand before CLOSED is handed over: the first steps of R80, the
reservation of a TRANSFERRING head released. -/
def State.headEnded (head : RecordId) (reason : EndReason) (latch : Bool) (s : State) : State :=
  let released := if (s.record head).state = .transferring then s.releaseReservation head else s
  let ended := released.modRecord head fun g =>
    { g with endTime := s.now, endReason := some reason, resumeDeadline := none, suspension := none }
  let cleared := ended.setSession (s.record head).bay none
  if latch then cleared.setEndedLatch (s.record head).bay true else cleared

/-- The head as it stands then. -/
def State.endedRecord (s : State) (head : RecordId) (reason : EndReason) : Record :=
  let moving := decide ((s.record head).state = .transferring)
  { s.record head with
    endTime := s.now
    endReason := some reason
    resumeDeadline := none
    suspension := none
    transferDeadline := if moving then none else (s.record head).transferDeadline
    transferTarget := if moving then none else (s.record head).transferTarget }

theorem record_releaseReservation (s : State) (head q : RecordId) :
    (s.releaseReservation head).record q =
      if q = head then { s.record head with transferDeadline := none, transferTarget := none } else s.record q := by
  unfold State.releaseReservation
  rw [record_modRecord]
  cases (s.record head).transferTarget <;> rfl

theorem bay_releaseReservation (s : State) (head : RecordId) (c : BayId) :
    (s.releaseReservation head).bay c =
      if (s.record head).transferTarget = some c then { s.bay c with reservedFor := none, foreignMark := false }
      else s.bay c := by
  unfold State.releaseReservation
  rw [bay_modRecord]
  cases (s.record head).transferTarget with
  | none => simp
  | some t =>
    dsimp only
    rw [bay_modBay]
    by_cases here : c = t
    · subst here; simp
    · simp [here, Ne.symm here]

theorem releaseReservation_frame (s : State) (head : RecordId) :
    s.releaseReservation head = { s with
      blc := { s.blc with bays := (s.releaseReservation head).blc.bays }
      ssm := { s.ssm with records := (s.releaseReservation head).ssm.records } } := by
  unfold State.releaseReservation
  cases (s.record head).transferTarget <;> rfl

theorem record_headEnded (s : State) (head : RecordId) (reason : EndReason) (latch : Bool) (q : RecordId) :
    (s.headEnded head reason latch).record q = if q = head then s.endedRecord head reason else s.record q := by
  unfold State.headEnded State.endedRecord
  dsimp only
  rw [apply_ite (fun t : State => t.record q)]
  simp only [record_setEndedLatch, record_setSession, ite_self, record_modRecord]
  by_cases moving : (s.record head).state = .transferring
  · simp only [moving, if_true, decide_true, record_releaseReservation]
    split <;> rfl
  · simp only [moving, if_false, decide_false, Bool.false_eq_true]

theorem bay_headEnded (s : State) (head : RecordId) (reason : EndReason) (latch : Bool) (c : BayId) :
    (s.headEnded head reason latch).bay c =
      { s.bay c with
        session := if c = (s.record head).bay then none else (s.bay c).session
        reservedFor := if decide ((s.record head).state = .transferring) && decide
          ((s.record head).transferTarget = some c)
          then none else (s.bay c).reservedFor
        foreignMark := if decide ((s.record head).state = .transferring) && decide
          ((s.record head).transferTarget = some c)
          then false else (s.bay c).foreignMark } := by
  unfold State.headEnded
  dsimp only
  rw [apply_ite (fun t : State => t.bay c)]
  simp only [bay_setEndedLatch, ite_self, State.setSession, bay_modBay, bay_modRecord]
  by_cases moving : (s.record head).state = .transferring
  · by_cases target : (s.record head).transferTarget = some c <;> by_cases own : c = (s.record head).bay <;>
      (simp [moving, target, own, bay_releaseReservation]; try simp_all)
  · by_cases own : c = (s.record head).bay <;> simp [moving, own]

theorem headEnded_frame (s : State) (head : RecordId) (reason : EndReason) (latch : Bool) :
    s.headEnded head reason latch = { s with
      blc := { s.blc with bays := (s.headEnded head reason latch).blc.bays }
      ssm := { s.ssm with
        records := (s.headEnded head reason latch).ssm.records
        endedLatch := if latch then put s.ssm.endedLatch (s.record head).bay true else s.ssm.endedLatch } } := by
  have released : (if (s.record head).state = .transferring then s.releaseReservation head else s) = { s with
      blc := { s.blc with bays :=
        (if (s.record head).state = .transferring then s.releaseReservation head else s).blc.bays }
      ssm := { s.ssm with records :=
        (if (s.record head).state = .transferring then s.releaseReservation head else s).ssm.records } } := by
    split
    · exact releaseReservation_frame s head
    · rfl
  unfold State.headEnded
  dsimp only
  rw [released]
  cases latch <;> rfl

/-! ## A close -/

theorem links_headEnded (s : State) (head : RecordId) (reason : EndReason) (latch : Bool) (q : RecordId) :
    ((s.headEnded head reason latch).record q).backLink = (s.record q).backLink := by
  rw [record_headEnded]
  split
  · subst q; rfl
  · rfl

theorem metered_headEnded (s : State) (head : RecordId) (reason : EndReason) (latch : Bool) (q : RecordId) :
    ((s.headEnded head reason latch).record q).metered = (s.record q).metered := by
  rw [record_headEnded]
  split
  · subst q; rfl
  · rfl

/-- The part with the chain's head ended, CLOSED handed over and its members CLOSED. -/
def State.chainClosed (head : RecordId) (reason : EndReason) (latch : Bool) (s : State) : State :=
  ((s.headEnded head reason latch).notify
    (.session (.closed head (s.record head).bay reason (s.chainMetered head) (s.record head).depth))).setMembers .closed
      (s.chain head)

/-- A chain that ends is closed and then placed (R80, R114). -/
theorem endChain_eq (s : State) (head : RecordId) (reason : EndReason) (latch : Bool) :
    s.endChain head reason latch = (s.chainClosed head reason latch).placeChain head := by
  have metered : (s.headEnded head reason latch).chainMetered head = s.chainMetered head :=
    chainMetered_congr (links_headEnded s head reason latch) (metered_headEnded s head reason latch) head
  have depth : ((s.headEnded head reason latch).record head).depth = (s.record head).depth := by
    rw [record_headEnded, if_pos rfl]; rfl
  have chain (n : Notice) : ((s.headEnded head reason latch).notify n).chain head = s.chain head :=
    chain_congr (fun q => by rw [record_notify, links_headEnded]) head
  show (((s.headEnded head reason latch).notify (.session (.closed head (s.record head).bay reason
    ((s.headEnded head reason latch).chainMetered head)
    ((s.headEnded head reason latch).record head).depth))).setMembers .closed
      (((s.headEnded head reason latch).notify _).chain head)).placeChain head = _
  rw [metered, depth, chain]
  rfl

section ChainClosed

variable (s : State) (head : RecordId) (reason : EndReason) (latch : Bool)

theorem record_chainClosed (q : RecordId) : (s.chainClosed head reason latch).record q =
    if q ∈ s.chain head then
      { (if q = head then s.endedRecord head reason else s.record q) with state := .closed }
    else s.record q := by
  unfold State.chainClosed
  rw [record_setMembers, record_notify, record_headEnded]
  by_cases here : q = head
  · subst here
    simp [head_mem_chain]
  · simp [here]

theorem chainClosed_frame : s.chainClosed head reason latch = { s with
    blc := { s.blc with bays := (s.headEnded head reason latch).blc.bays }
    ssm := { s.ssm with
      records := (s.chainClosed head reason latch).ssm.records
      endedLatch := if latch then put s.ssm.endedLatch (s.record head).bay true else s.ssm.endedLatch }
    mpt := (s.notify (.session (.closed head (s.record head).bay reason (s.chainMetered head)
      (s.record head).depth))).mpt } := by
  have frame := headEnded_frame s head reason latch
  let n : Notice := .session (.closed head (s.record head).bay reason (s.chainMetered head) (s.record head).depth)
  have told : ((s.headEnded head reason latch).notify n).mpt = (s.notify n).mpt :=
    notify_mpt_congr (by rw [frame]) (by rw [frame]; rfl) (by rw [frame]; rfl) n
  have closed := setMembers_frame .closed (s.chain head) ((s.headEnded head reason latch).notify n)
  have named : s.chainClosed head reason latch =
      ((s.headEnded head reason latch).notify n).setMembers .closed (s.chain head) := rfl
  rw [← named] at closed
  generalize (s.chainClosed head reason latch).ssm.records = records at closed ⊢
  rw [closed, notify_frame, told]
  generalize s.headEnded head reason latch = h at frame ⊢
  rw [frame]

end ChainClosed

/-- The state of the members of a chain that has been placed: RECEIPTED with room for its receipt, CLOSED without. -/
theorem placeChain_of_room {u : State} (head : RecordId) (room : u.ssm.waiting = [] ∧ u.rcq.entries.length < 8) :
    u.placeChain head = u.issueReceipt head := if_pos ⟨room.1, decide_eq_true room.2⟩

theorem placeChain_of_no_room {u : State} (head : RecordId) (full : ¬ (u.ssm.waiting = [] ∧ u.rcq.entries.length < 8)) :
    u.placeChain head = u.setWaiting (u.ssm.waiting ++ [head]) := by
  refine if_neg fun room => full ⟨room.1, of_decide_eq_true room.2⟩

theorem record_issueReceipt (u : State) (head q : RecordId) : (u.issueReceipt head).record q =
    if q ∈ u.chain head then { u.record q with state := .receipted } else u.record q := by
  unfold State.issueReceipt
  dsimp only
  rw [record_notify, record_setMembers]
  rfl

theorem issueReceipt_frame (u : State) (head : RecordId) : u.issueReceipt head = { u with
    ssm := { u.ssm with records := (u.issueReceipt head).ssm.records }
    rcq := ⟨u.rcq.entries ++ [u.buildReceipt u.rcq.nextNumber head], nextNumberAfter u.rcq.nextNumber⟩
    mpt := (u.notify (.receipt (u.buildReceipt u.rcq.nextNumber head) false)).mpt } := by
  let n : Notice := .receipt (u.buildReceipt u.rcq.nextNumber head) false
  let queued : State :=
    { u with
      rcq := ⟨u.rcq.entries ++ [u.buildReceipt u.rcq.nextNumber head], nextNumberAfter u.rcq.nextNumber⟩ }
  have told : ((queued.setMembers .receipted (u.chain head)).notify n).mpt = (u.notify n).mpt :=
    notify_mpt_congr (by rw [setMembers_frame]) (by rw [setMembers_frame]; rfl) (by rw [setMembers_frame]; rfl) n
  have named : u.issueReceipt head = (queued.setMembers .receipted (u.chain head)).notify n := rfl
  have records : (u.issueReceipt head).ssm.records = (queued.setMembers .receipted (u.chain head)).ssm.records := by
    rw [named, notify_ssm]
  rw [records, named, notify_frame, told, setMembers_frame]

/-- The receipt of a chain is the one that the part builds of it once it has been issued (R150). -/
theorem buildReceipt_issueReceipt (u : State) (head : RecordId) (number : Word32) :
    (u.issueReceipt head).buildReceipt number head = u.buildReceipt number head := by
  have frame := issueReceipt_frame u head
  refine buildReceipt_congr (fun q => ?_) (fun pg => by rw [frame]; rfl) (by rw [frame]; rfl) number head
  rw [record_issueReceipt]
  split
  · exact ⟨_, rfl⟩
  · exact ⟨_, rfl⟩

/-- What placing a chain can change. -/
theorem placeChain_frame (u : State) (head : RecordId) : u.placeChain head = { u with
    ssm := { u.ssm with
      records := (u.placeChain head).ssm.records
      waiting := (u.placeChain head).ssm.waiting }
    rcq := (u.placeChain head).rcq
    mpt := (u.placeChain head).mpt } := by
  by_cases room : u.ssm.waiting = [] ∧ u.rcq.entries.length < 8
  · rw [placeChain_of_room head room, issueReceipt_frame]
  · rw [placeChain_of_no_room head room]
    rfl

/-- The state that the members of a chain take when it closes: RECEIPTED when no chain waits and the receipt queue has
room, CLOSED otherwise (R80, R150). -/
def State.afterClose (s : State) : RecordState :=
  if s.ssm.waiting = [] ∧ s.rcq.entries.length < 8 then .receipted else .closed

section EndChain

variable (s : State) (head : RecordId) (reason : EndReason) (latch : Bool)

theorem chain_chainClosed : (s.chainClosed head reason latch).chain head = s.chain head := by
  refine chain_congr (fun q => ?_) head
  rw [record_chainClosed]
  split
  · split
    · subst q; rfl
    · rfl
  · rfl

theorem room_chainClosed : ((s.chainClosed head reason latch).ssm.waiting = [] ∧
    (s.chainClosed head reason latch).rcq.entries.length < 8) ↔ s.ssm.waiting = [] ∧ s.rcq.entries.length < 8 := by
  rw [chainClosed_frame]

theorem record_endChain (q : RecordId) : (s.endChain head reason latch).record q =
    if q ∈ s.chain head then
      { (if q = head then s.endedRecord head reason else s.record q) with state := s.afterClose }
    else s.record q := by
  have closed := record_chainClosed s head reason latch q
  have space := room_chainClosed s head reason latch
  rw [endChain_eq]
  unfold State.afterClose
  by_cases room : s.ssm.waiting = [] ∧ s.rcq.entries.length < 8
  · rw [placeChain_of_room head (space.mpr room), record_issueReceipt, chain_chainClosed, closed, if_pos room]
    split <;> rfl
  · rw [placeChain_of_no_room head (space.not.mpr room), record_setWaiting, closed, if_neg room]

theorem bay_endChain (c : BayId) : (s.endChain head reason latch).bay c = (s.headEnded head reason latch).bay c := by
  rw [endChain_eq, placeChain_frame, chainClosed_frame]
  rfl

/-- What the end of a chain can change. -/
theorem endChain_frame : s.endChain head reason latch = { s with
    blc := { s.blc with bays := (s.headEnded head reason latch).blc.bays }
    ssm := { s.ssm with
      records := (s.endChain head reason latch).ssm.records
      endedLatch := if latch then put s.ssm.endedLatch (s.record head).bay true else s.ssm.endedLatch
      waiting := (s.endChain head reason latch).ssm.waiting }
    rcq := (s.endChain head reason latch).rcq
    mpt := (s.endChain head reason latch).mpt } := by
  have closed := chainClosed_frame s head reason latch
  have placed := placeChain_frame (s.chainClosed head reason latch) head
  rw [← endChain_eq] at placed
  generalize s.endChain head reason latch = t at placed ⊢
  generalize s.chainClosed head reason latch = u at closed placed
  rw [placed, closed]

end EndChain

/-- Settles O19: the chain is closed as one update, and then receipted or set to wait. -/
theorem closeEndsTheChain : Obligations.CloseEndsTheChain := by
  rintro head reason plugged s t b moving room after told rfl rfl rfl isRoom receipted closed rfl
  let latch : Bool := decide (reason = .stopped) || plugged
  have latched : (if latch = true then put s.ssm.endedLatch (s.record head).bay true else s.ssm.endedLatch) =
      if reason = .stopped ∨ plugged = true then put s.ssm.endedLatch (s.record head).bay true
      else s.ssm.endedLatch := by simp [latch]
  have isAfter : s.afterClose = after := by
    unfold State.afterClose
    by_cases has : room
    · rw [if_pos (isRoom.mp has), receipted has]
    · rw [if_neg (isRoom.not.mp has), closed has]
  have ended : s.closeChain head reason plugged = s.endChain head reason latch := rfl
  have placed := endChain_eq s head reason latch
  have frame := endChain_frame s head reason latch
  have records := record_endChain s head reason latch
  have bays (c : BayId) := (bay_endChain s head reason latch c).trans (bay_headEnded s head reason latch c)
  rw [latched] at frame
  rw [ended]
  refine ⟨?_, ?_, ?_, fun q other mem => ?_, fun q out => ?_, ?_, fun c target isTarget => ?_, fun has => ?_,
    fun full => ?_⟩
  · rw [frame]
  · rw [frame]
  · rw [records, if_pos (head_mem_chain s head), if_pos rfl, isAfter]
    rfl
  · rw [records, if_pos mem, if_neg other, isAfter]
  · rw [records, if_neg out]
  · rw [frame]
  · rw [bays, isTarget]
  · have place := placeChain_of_room head ((room_chainClosed s head reason latch).mpr (isRoom.mp has))
    have issued := issueReceipt_frame (s.chainClosed head reason latch) head
    rw [placed, place]
    refine ⟨_, rfl, ?_, ?_, ?_⟩
    · rw [issued, chainClosed_frame]
      exact (isRoom.mp has).1
    · rw [buildReceipt_issueReceipt, issued, chainClosed_frame]
      rfl
    · have number : (s.chainClosed head reason latch).rcq.nextNumber = s.rcq.nextNumber := by rw [chainClosed_frame]
      rw [buildReceipt_issueReceipt, issued]
      dsimp only
      rw [number]
      refine notify_mpt_congr ?_ ?_ ?_ _
      · rw [chainClosed_frame]
      · rw [chainClosed_frame]; rfl
      · rw [chainClosed_frame]; rfl
  · rw [placed, placeChain_of_no_room head ((room_chainClosed s head reason latch).not.mpr (isRoom.not.mp full))]
    refine ⟨?_, ?_, ?_⟩
    all_goals (rw [chainClosed_frame]; rfl)

end Sys2Proof.Machine
end

section
/-! PROOFS: transfers, arrivals and continuations (R102, R103, R105–R113). -/

namespace Sys2Proof.Machine

/-! ## TRANSFER and CANCEL_TRANSFER -/

section Transfer

variable {x y : Byte} {r : RecordId} {b : BayId} {s : State}

theorem transfer_of_gt (h : 31 < x.toNat ∨ 15 < y.toNat) (s : State) : transfer x y s = .refuse .badArg s := by
  unfold transfer
  obtain h | h := h
  · rw [recordOperand_of_gt h]
  · rw [bayOperand_of_gt h]
    cases recordOperand x <;> rfl

theorem transfer_of_operands (named : x.toNat = r.val) (target : y.toNat = b.val) (s : State) :
    transfer x y s =
      if (s.record r).state ≠ .active ∧ (s.record r).state ≠ .suspended then .refuse .notActive s
      else if 4 ≤ (s.record r).depth then .refuse .chainFull s
      else if !s.settings.enabled[b.val] then .refuse .badArg s
      else if (s.bay b).session.isSome ∨ s.reserved b then .refuse .busy s
      else ⟨.ok, .deadline (s.deadline (1000 * s.settings.transferTimeout)), s.beginTransfer r b⟩ := by
  unfold transfer
  rw [recordOperand_of_eq_val named, bayOperand_of_eq_val target]

theorem cancelTransfer_of_gt (h : 31 < x.toNat) (s : State) : cancelTransfer x s = .refuse .badArg s := by
  unfold cancelTransfer
  rw [recordOperand_of_gt h]

theorem cancelTransfer_of_record (named : x.toNat = r.val) (s : State) :
    cancelTransfer x s =
      if (s.record r).state = .transferring then
        ⟨.ok, .nothing, (s.releaseReservation r).suspend r (s.cancelReason (s.record r).bay)⟩
      else .refuse .notActive s := by
  unfold cancelTransfer
  rw [recordOperand_of_eq_val named]

end Transfer

theorem busy_iff (s : State) (b : BayId) : ((s.bay b).session.isSome = true ∨ s.reserved b = true) ↔
    ((s.bay b).session ≠ none ∨ (s.bay b).reservedFor ≠ none) := by
  unfold State.reserved
  rw [Option.isSome_iff_ne_none, Option.isSome_iff_ne_none]

theorem releaseReservation_of_target {s : State} {r : RecordId} {b : BayId}
    (target : (s.record r).transferTarget = some b) :
    s.releaseReservation r = { s with
      ssm := { s.ssm with
        records := put s.ssm.records r { s.record r with transferDeadline := none, transferTarget := none } }
      blc := { s.blc with
        bays := put s.blc.bays b { s.bay b with reservedFor := none, foreignMark := false } } } := by
  unfold State.releaseReservation
  rw [target]
  rfl

/-- A suspension as one update: SUSPENDED goes to Port A. -/
theorem suspend_eq (s : State) (r : RecordId) (reason : SuspensionReason) :
    s.suspend r reason = { s.notify (.session (.suspended r (s.record r).bay reason)) with
      ssm := { s.ssm with
        records := put s.ssm.records r
          { s.record r with
            state := .suspended
            suspension := some reason
            resumeDeadline := s.deadline (1000 * s.settings.resumeWindow)
            charge := .waiting } } } := rfl

/-- Settles O21: each check is one branch of the block, and what the last of them does is one update. -/
theorem transfersReserveAndCancel : Obligations.TransfersReserveAndCancel := by
  refine ⟨fun p e x y r b s taken named target runs shallow enabled idle unreserved => ?_, fun p e x y s taken => ?_,
    fun p e x r b why s taken named moving target reason => ?_, fun p e x s taken => ?_⟩
  · rw [show exec (.transfer p x y) s = .next ((transfer x y s).send p) from serve_taken taken _,
      transfer_of_operands named target, if_neg (by rw [← not_or, not_not]; exact runs), if_neg (by omega),
      if_neg (by simp [enabled]), if_neg (by rw [busy_iff]; simp [idle, unreserved])]
    rfl
  · rw [show exec (.transfer p x y) s = .next ((transfer x y s).send p) from serve_taken taken _]
    refine ⟨fun above => by rw [transfer_of_gt above], fun r b named target => ?_⟩
    rw [transfer_of_operands named target]
    refine ⟨fun stands => by rw [if_pos (not_or.mp stands)], fun runs => ?_⟩
    rw [if_neg (by rw [← not_or, not_not]; exact runs)]
    refine ⟨fun deep => by rw [if_pos deep], fun shallow disabled => ?_, fun shallow enabled busy => ?_⟩
    · rw [if_neg (by omega), if_pos (by simp [disabled])]
    · rw [if_neg (by omega), if_neg (by simp [enabled]), if_pos ((busy_iff s b).mpr busy)]
  · rw [show exec (.cancelTransfer p x) s = .next ((cancelTransfer x s).send p) from serve_taken taken _,
      cancelTransfer_of_record named, if_pos moving, releaseReservation_of_target target, suspend_eq,
      show s.cancelReason (s.record r).bay = why from reason.symm]
    simp only [State.record, put_self, put_put]
    rfl
  · rw [show exec (.cancelTransfer p x) s = .next ((cancelTransfer x s).send p) from serve_taken taken _]
    refine ⟨fun above => by rw [cancelTransfer_of_gt above], fun r named stands => ?_⟩
    rw [cancelTransfer_of_record named, if_neg stands]

/-! ## Pins -/

theorem addPinOf_frame (pg : Option PageId) (s : State) :
    s.addPinOf pg = { s with tfs := { s.tfs with pages := (s.addPinOf pg).tfs.pages } } := by cases pg <;> rfl

theorem page_addPinOf (pg : Option PageId) (s : State) (x : PageId) : (s.addPinOf pg).page x = s.pinned pg x := by
  unfold State.pinned
  cases pg with
  | none => rfl
  | some pg =>
    show (s.modPage pg fun g => { g with pins := g.pins + 1 }).page x = _
    rw [page_modPage]
    by_cases same : x = pg
    · subst same; simp
    · simp [same, Ne.symm same]

/-- A pin leaves the prices of a page. -/
theorem priceAt_pinned (pg : Option PageId) (s : State) (x : PageId) (now : Option SiteTime) :
    (s.pinned pg x).priceAt now = (s.page x).priceAt now := by
  unfold State.pinned
  split <;> rfl

/-! ## Continuations -/

section Link

variable (s : State) (old new : RecordId) (g : Record)

theorem link_frame : s.link old new g = { s with
    ssm := { s.ssm with records := (s.link old new g).ssm.records, allocPointer := new + 1 }
    tfs := { s.tfs with pages := (s.link old new g).tfs.pages } } := by
  unfold State.link
  rw [addPinOf_frame]
  rfl

theorem page_link (x : PageId) : (s.link old new g).page x = s.pinned g.page x :=
  page_addPinOf g.page (s.takeRecord new g) x

variable {old new}

theorem record_link (other : new ≠ old) (q : RecordId) : (s.link old new g).record q =
    if q = old then (s.record old).linked else if q = new then g else s.record q := by
  have kept (t : State) (x : RecordId) : (t.addPinOf g.page).record x = t.record x := by rw [addPinOf_frame]; rfl
  unfold State.link
  rw [record_modRecord, kept, kept, record_takeRecord, record_takeRecord, if_neg other.symm]
  rfl

end Link

/-! ## A report on a reserved bay -/

theorem idleStep_of_none {s : State} {b : BayId} (idle : (s.bay b).session = none) (report previous : Report)
    (before : Option SiteTime) : s.idleStep b report previous before = s := by
  unfold State.idleStep
  rw [idle]

theorem situationStep_of_reserved {s : State} {b : BayId} {head : RecordId}
    (reserved : (s.bay b).reservedFor = some head) (report : Report) :
    s.situationStep b report = s.reservedReport head b report := by
  unfold State.situationStep
  rw [reserved]

theorem statusEvent_of_reserved {s : State} {b : BayId} {head : RecordId}
    (reserved : (s.bay b).reservedFor = some head) (idle : (s.bay b).session = none) (report previous : Report)
    (before : Option SiteTime) :
    s.statusEvent b report previous before = (s.reservedReport head b report).clearMarks b report := by
  unfold State.statusEvent
  rw [idleStep_of_none idle, situationStep_of_reserved reserved]

theorem clearMarks_of_plugged {report : Report} (h : report.vehicle ≠ .unplugged) (b : BayId) (s : State) :
    s.clearMarks b report = s := if_neg h

theorem clearMarks_of_unplugged {report : Report} (h : report.vehicle = .unplugged) (b : BayId) (s : State) :
    s.clearMarks b report = s.unmarked b := if_pos h

theorem ne_unplugged_of_asks {v : VehicleState} (h : v = .plugged ∨ v = .demanding) : v ≠ .unplugged := by
  obtain rfl | rfl := h <;> decide

theorem matchesChain_iff (s : State) (head : RecordId) (report : Report) : s.matchesChain head report = true ↔
    (report.vehicle = .plugged ∨ report.vehicle = .demanding) ∧
      (report.token = (s.record head).token ∨ s.settings.tokenFreeTransfer = true ∧ report.token = none) := by
  unfold State.matchesChain
  rw [Bool.and_eq_true, asks_iff]
  simp

/-- An arrival, its pin and its records apart (R106). -/
theorem arrive_eq (s : State) (old new : RecordId) (b : BayId) :
    s.arrive old new b = { s with
      blc := { s.blc with
        bays := (((s.setSession (s.record old).bay none).modBay b fun e =>
          { e with reservedFor := none, session := some new, foreignMark := false })).blc.bays }
      ssm := { s.ssm with
        records := (s.link old new (s.continuation old b (s.bay b).lastCounter)).ssm.records
        allocPointer := new + 1
        endedLatch := put s.ssm.endedLatch b false
        noContextMark := put s.ssm.noContextMark b false }
      tfs := { s.tfs with pages := (s.link old new (s.continuation old b (s.bay b).lastCounter)).tfs.pages }
      mpt := (s.notify (.session (.continued old new b ((s.record old).depth + 1) .transfer))).mpt } := by
  unfold State.arrive
  dsimp only
  rw [link_frame]
  rfl

/-- Settles O22: a reserved bay's report is judged by its vehicle state and its token, and a match by a FREE record. -/
theorem arrivalContinuesTheChain : Obligations.ArrivalContinuesTheChain := by
  intro s b home old report previous before asks same reserved idle isHome isAsks isSame
  rw [statusEvent_of_reserved reserved idle]
  have isMatch : s.matchesChain old report = true ↔ asks ∧ same := by rw [matchesChain_iff, ← isAsks, ← isSame]
  have matched (ha : asks) (hs : same) : s.reservedReport old b report = s.arrival old b :=
    if_pos (isMatch.mpr ⟨ha, hs⟩)
  have unmatched (no : ¬ (asks ∧ same)) : s.reservedReport old b report =
      if report.vehicle.asks ∧ !(s.bay b).foreignMark then
        (s.modBay b fun e => { e with foreignMark := true }).notify (.bayReserved b old)
      else s := if_neg (isMatch.not.mpr no)
  have marks (ha : asks) (t : State) : t.clearMarks b report = t :=
    clearMarks_of_plugged (ne_unplugged_of_asks (isAsks.mp ha)) b t
  refine ⟨fun t new ha hs free other away arrived => ?_, fun u ha hs none closed => ?_, fun ha hs unmarked => ?_,
    fun ha hs marked => ?_, fun fault => ?_, fun unplugged => ?_⟩
  · rw [marks ha, matched ha hs] at arrived
    have arrived' : s.arrive old new b = t := by
      rw [← arrived]
      unfold State.arrival
      rw [free]
    have frame := arrive_eq s old new b
    rw [arrived'] at frame
    have record (q : RecordId) : t.record q =
        (s.link old new (s.continuation old b (s.bay b).lastCounter)).record q := by rw [frame]; rfl
    have page (pg : PageId) : t.page pg =
        (s.link old new (s.continuation old b (s.bay b).lastCounter)).page pg := by rw [frame]; rfl
    refine ⟨by rw [frame], ?_, ?_, fun q notOld notNew => ?_, by rw [frame], ?_, by rw [frame], fun pg => ?_,
      by rw [frame]⟩
    · rw [record, record_link _ _ other, if_neg other, if_pos rfl]
      rfl
    · rw [record, record_link _ _ other, if_pos rfl]
    · rw [record, record_link _ _ other, if_neg notOld, if_neg notNew]
    · rw [frame, isHome]
      rw [show ((s.setSession home none).modBay b fun e =>
          { e with reservedFor := none, session := some new, foreignMark := false }).blc = { s.blc with
            bays := put (put s.blc.bays home { s.bay home with session := none }) b
              { (s.setSession home none).bay b with reservedFor := none, session := some new, foreignMark := false } }
          from rfl, show (s.setSession home none).bay b = s.bay b from bay_of_modBay_ne s _ away.symm]
    · rw [page, page_link]
      rfl
  · rw [marks ha, matched ha hs, ← closed, ← isHome]
    unfold State.arrival
    rw [none]
    rfl
  · rw [marks ha, unmatched (fun h => hs h.2), if_pos ⟨(asks_iff _).mpr (isAsks.mp ha), by rw [unmarked]; rfl⟩]
    rfl
  · rw [marks ha, unmatched (fun h => hs h.2), if_neg (by simp [marked])]
  · have no : ¬ asks := by rw [isAsks, fault]; decide
    rw [unmatched (fun h => no h.1), if_neg (by simp [fault, VehicleState.asks]), clearMarks_of_plugged
      (by simp [fault])]
  · have no : ¬ asks := by rw [isAsks, unplugged]; decide
    rw [unmatched (fun h => no h.1), if_neg (by simp [unplugged, VehicleState.asks]), clearMarks_of_unplugged unplugged]

end Sys2Proof.Machine
end

section
/-! PROOFS: the ninth triple: a continuation on the same bay, or the chain's end and a fresh root (R111–R113). -/

namespace Sys2Proof.Machine

theorem isPlugged_eq (v : VehicleState) : v.isPlugged = (v != .unplugged) := by cases v <;> rfl

theorem record_account (s : State) (r q : RecordId) (e : Nat) : (s.account r e).record q =
    if q = r then
      { s.record r with
        metered := (s.record r).metered + e
        segments := addDelta e (s.sharesFor (s.record r).cls) (s.tripleFor r) s.now (s.record r).segments }
    else s.record q := record_modRecord ..

theorem account_frame (s : State) (r : RecordId) (e : Nat) : s.account r e = { s with
    ssm := { s.ssm with records := (s.account r e).ssm.records } } := rfl

theorem stillPlugged_setSession (s : State) (b c : BayId) (r : Option RecordId) :
    (s.setSession c r).stillPlugged b = s.stillPlugged b := by
  unfold State.stillPlugged State.setSession
  rw [bay_modBay]
  split
  · subst b; rfl
  · rfl

/-- The price triple of a record that pins the page of another: a pin leaves a page's prices. -/
theorem tripleFor_of_page {s t : State} {r q : RecordId} {extra : Option PageId}
    (page : (t.record r).page = (s.record q).page) (pages : ∀ x, t.page x = s.pinned extra x) (now : t.now = s.now) :
    t.tripleFor r = s.tripleFor q := by
  unfold State.tripleFor State.pinnedPage
  rw [page, now]
  cases (s.record q).page with
  | none => rfl
  | some pg =>
    dsimp only
    rw [pages, priceAt_pinned]

/-- The record that continues a chain on the bay of its head (R111). -/
def State.rolledRecord (s : State) (old : RecordId) (counter : Word32) : Record :=
  { s.continuation old (s.record old).bay (some counter) with
    state := (s.record old).state
    suspension := (s.record old).suspension
    resumeDeadline := (s.record old).resumeDeadline
    charge := (s.record old).charge }

/-- The part with the continuation opened on the same bay and the delta in it. -/
def State.rolled (old new : RecordId) (e : Nat) (counter : Word32) (s : State) : State :=
  (((s.link old new (s.rolledRecord old counter)).setSession (s.record old).bay (some new))).account new e

theorem rollover_eq (s : State) (old new : RecordId) (e : Nat) (counter : Word32) :
    s.rollover old new e counter =
      ((s.rolled old new e counter).checkCaps new (s.stillPlugged (s.record old).bay)).notify
        (.session (.continued old new (s.record old).bay ((s.record old).depth + 1) .rollover)) := by
  have plugged : ∀ b, (s.rolled old new e counter).stillPlugged b = s.stillPlugged b := fun b => by
    show ((s.link old new (s.rolledRecord old counter)).setSession (s.record old).bay (some new)).stillPlugged b = _
    rw [stillPlugged_setSession, link_frame]
    rfl
  have bay : (((s.link old new (s.rolledRecord old counter)).setSession (s.record old).bay (some new)).record new).bay
      = (s.record old).bay := by
    rw [record_setSession]
    by_cases other : new = old
    · subst other
      unfold State.link
      rw [record_modRecord_self]
      have kept (t : State) : (t.addPinOf (s.rolledRecord new counter).page).record new = t.record new := by
        rw [addPinOf_frame]; rfl
      rw [kept, record_takeRecord, if_pos rfl]
      rfl
    · rw [record_link _ _ other, if_neg other, if_pos rfl]
      rfl
  show ((s.rolled old new e counter).checkCaps new ((s.rolled old new e counter).stillPlugged
    (((s.link old new (s.rolledRecord old counter)).setSession (s.record old).bay (some new)).record new).bay)).notify
      _ = _
  rw [bay, plugged]
  rfl

section Rolled

variable {s : State} {old new : RecordId} (e : Nat) (counter : Word32)

theorem rolled_frame : s.rolled old new e counter = { s with
    blc := { s.blc with
      bays := put s.blc.bays (s.record old).bay { s.bay (s.record old).bay with session := some new } }
    ssm := { s.ssm with records := (s.rolled old new e counter).ssm.records, allocPointer := new + 1 }
    tfs := { s.tfs with pages := (s.rolled old new e counter).tfs.pages } } := by
  unfold State.rolled
  rw [account_frame, link_frame]
  rfl

theorem page_rolled (x : PageId) : (s.rolled old new e counter).page x = s.pinned (s.record old).page x :=
  page_link s old new (s.rolledRecord old counter) x

theorem record_rolled (other : new ≠ old) (q : RecordId) : (s.rolled old new e counter).record q =
    if q = old then (s.record old).linked
    else if q = new then
      { s.rolledRecord old counter with
        metered := e
        segments := addDelta e (s.sharesFor (s.record old).cls) (s.tripleFor old) s.now [] }
    else s.record q := by
  let w : State := (s.link old new (s.rolledRecord old counter)).setSession (s.record old).bay (some new)
  have records (q : RecordId) : w.record q =
      if q = old then (s.record old).linked else if q = new then s.rolledRecord old counter else s.record q := by
    rw [record_setSession, record_link _ _ other]
  have opened : w.record new = s.rolledRecord old counter := by rw [records, if_neg other, if_pos rfl]
  have now : w.now = s.now := by unfold w; rw [link_frame]; rfl
  have triple : w.tripleFor new = s.tripleFor old :=
    tripleFor_of_page (by rw [opened]; rfl) (page_link s old new (s.rolledRecord old counter)) now
  have shares (cls : Fin 3) : w.sharesFor cls = s.sharesFor cls := by unfold w; rw [link_frame]; rfl
  show (w.account new e).record q = _
  rw [record_account, opened, triple, shares, now, records]
  by_cases isNew : q = new
  · subst isNew
    rw [if_pos rfl, if_neg other, if_pos rfl]
    unfold State.rolledRecord State.continuation Record.cleared
    dsimp only
    rw [Nat.zero_add]
  · simp only [isNew, if_false]

end Rolled

/-! ## SPLIT_LIMIT -/

/-- The part with a fresh root open on the bay of a chain that SPLIT_LIMIT ended, and the delta in it (R112). -/
def State.restarted (u : State) (new : RecordId) (g : Record) (e : Nat) : State :=
  ((u.takeRecord new Record.cleared).openRoot new g).account new e

section Restarted

variable {u : State} {new : RecordId} {g : Record} {pg : PageId} (pinned : g.page = some pg) (e : Nat)
include pinned

theorem restarted_frame : u.restarted new g e = { u with
    ssm := { u.ssm with
      records := (u.restarted new g e).ssm.records
      allocPointer := new + 1
      startCounter := nextStart u.ssm.startCounter }
    blc := { u.blc with bays := put u.blc.bays g.bay { u.bay g.bay with session := some new } }
    tfs := { u.tfs with pages := put u.tfs.pages pg { u.page pg with pins := (u.page pg).pins + 1 } }
    mpt := (u.notify (.session (.started new g.bay g.plan g.cls (nextStart u.ssm.startCounter)))).mpt } := by
  unfold State.restarted
  rw [account_frame, takeRecord_openRoot_eq _ _ _ pg pinned]
  rfl

theorem page_restarted (x : PageId) : (u.restarted new g e).page x = u.pinned (some pg) x := by
  rw [restarted_frame pinned]
  show (u.modPage pg fun p => { p with pins := p.pins + 1 }).page x = _
  rw [page_modPage]
  unfold State.pinned
  by_cases same : x = pg
  · subst same; simp
  · simp [same, Ne.symm same]

theorem record_restarted (q : RecordId) : (u.restarted new g e).record q =
    if q = new then
      { g with
        startSeq := some (nextStart u.ssm.startCounter)
        startTime := u.now
        metered := g.metered + e
        segments := addDelta e (u.sharesFor g.cls) ((u.page pg).priceAt u.now) u.now g.segments }
    else u.record q := by
  let w : State := (u.takeRecord new Record.cleared).openRoot new g
  have eq : w = _ := takeRecord_openRoot_eq u new g pg pinned
  have records (q : RecordId) : w.record q =
      if q = new then { g with startSeq := some (nextStart u.ssm.startCounter), startTime := u.now }
      else u.record q := by
    rw [eq]; exact put_at ..
  have opened := (records new).trans (if_pos rfl)
  have now : w.now = u.now := by rw [eq]; rfl
  have pages (x : PageId) : w.page x = u.pinned (some pg) x := page_restarted (e := e) pinned x
  have triple : w.tripleFor new = (u.page pg).priceAt u.now := by
    unfold State.tripleFor State.pinnedPage
    rw [opened, now]
    dsimp only
    rw [pinned]
    dsimp only
    rw [pages, priceAt_pinned]
  have shares (cls : Fin 3) : w.sharesFor cls = u.sharesFor cls := by rw [eq]; rfl
  show (w.account new e).record q = _
  rw [record_account, opened, triple, shares, now, records]
  by_cases isNew : q = new
  · simp [isNew]
  · simp only [isNew, if_false]

end Restarted

theorem splitLimit_of_restart {s u : State} {old new : RecordId} {entry : PlanEntry}
    (ended : s.endChain old .splitLimit false = u) (named : (s.record old).plan.bind u.plan = some entry)
    (free : u.freeRecord = some new) (e : Nat) (counter : Word32) :
    s.splitLimit old e counter =
      (u.restarted new (s.freshRoot old entry.page counter) e).checkCaps new (u.stillPlugged (s.record old).bay) := by
  have eq := takeRecord_openRoot_eq u new (s.freshRoot old entry.page counter) entry.page rfl
  have bay : (((u.takeRecord new Record.cleared).openRoot new (s.freshRoot old entry.page counter)).record new).bay =
      (s.record old).bay := by
    rw [eq]
    show ((put u.ssm.records new _)[new.val]).bay = _
    rw [put_at, if_pos rfl]
    rfl
  have plugged (b : BayId) : (u.restarted new (s.freshRoot old entry.page counter) e).stillPlugged b =
      u.stillPlugged b := by
    show ((u.takeRecord new Record.cleared).openRoot new (s.freshRoot old entry.page counter)).stillPlugged b = _
    rw [eq]
    exact stillPlugged_setSession u b (s.record old).bay (some new)
  unfold State.splitLimit
  rw [ended]
  dsimp only
  rw [named, free]
  show (u.restarted new (s.freshRoot old entry.page counter) e).checkCaps new
    ((u.restarted new (s.freshRoot old entry.page counter) e).stillPlugged
      (((u.takeRecord new Record.cleared).openRoot new (s.freshRoot old entry.page counter)).record new).bay) = _
  rw [bay, plugged]

theorem splitLimit_of_no_restart {s u : State} {old : RecordId}
    (ended : s.endChain old .splitLimit false = u)
    (barred : (s.record old).plan.bind u.plan = none ∨ u.freeRecord = none) (e : Nat) (counter : Word32) :
    s.splitLimit old e counter = (u.setEndedLatch (s.record old).bay true).addUnbilled (s.record old).bay e := by
  unfold State.splitLimit
  rw [ended]
  dsimp only
  obtain none | none := barred
  · rw [none]
  · rw [none]
    cases (s.record old).plan.bind u.plan <;> rfl

theorem stillPlugged_endChain (s : State) (head : RecordId) (reason : EndReason) (latch : Bool) (b : BayId) :
    (s.endChain head reason latch).stillPlugged b = s.stillPlugged b := by
  unfold State.stillPlugged
  rw [bay_endChain, bay_headEnded]

/-- Settles O23: by the depth of the head and by whether a FREE record, and an entry of the plan, is there. -/
theorem ninthTripleContinuesOrCloses : Obligations.NinthTripleContinuesOrCloses := by
  rintro s t old b e counter h stays rfl rfl taken stay
  rw [← isPlugged_eq] at stay
  refine ⟨fun new free other shallow => ?_, fun u none shallow closed => ?_, fun u deep ended => ⟨fun barred => ?_,
    fun entry new named free => ?_⟩⟩
  · have isRolled : s.ninthTriple old e counter = s.rollover old new e counter := by
      unfold State.ninthTriple
      dsimp only
      rw [if_pos shallow, free]
    rw [isRolled, rollover_eq] at taken
    have frame := rolled_frame (s := s) (old := old) (new := new) e counter
    have record := record_rolled (s := s) e counter other
    refine ⟨s.rolled old new e counter, ?_, ?_, ?_, ?_, fun q notOld notNew => ?_, ?_, ?_, page_rolled e counter,
      fun atCap => ?_, fun free => ?_⟩
    · rw [frame]
    · rw [frame]
    · rw [record, if_neg other, if_pos rfl]
      rfl
    · rw [record, if_pos rfl]
    · rw [record, if_neg notOld, if_neg notNew]
    · rw [frame]
    · rw [frame]
    · rw [← taken, State.checkCaps_of_atCap atCap, stay]
      rfl
    · rw [← taken, State.checkCaps_of_not_atCap free]
  · rw [← taken, ← closed]
    unfold State.ninthTriple
    dsimp only
    rw [if_pos shallow, none]
    rfl
  all_goals
    have split : s.ninthTriple old e counter = s.splitLimit old e counter := if_neg (by omega)
    rw [split] at taken
    have plans : u.plan = s.plan := by rw [← ended, endChain_frame]; rfl
  · rw [← plans] at barred
    rw [← taken, splitLimit_of_no_restart ended barred]
    rfl
  · have frame := restarted_frame (u := u) (new := new) (g := s.freshRoot old entry.page counter) rfl e
    have record := record_restarted (u := u) (new := new) (g := s.freshRoot old entry.page counter) rfl e
    have page := page_restarted (u := u) (new := new) (g := s.freshRoot old entry.page counter) rfl e
    have ended_frame := endChain_frame s old .splitLimit false
    rw [ended] at ended_frame
    have plugged : u.stillPlugged (s.record old).bay = stays := by rw [← ended, stillPlugged_endChain, stay]; rfl
    rw [← plans] at named
    rw [splitLimit_of_restart ended named free, plugged] at taken
    have count : u.ssm.startCounter = s.ssm.startCounter := by rw [ended_frame]
    have tfs : u.tfs = s.tfs := by rw [ended_frame]
    have now : u.now = s.now := by rw [ended_frame]; rfl
    have ale : u.ale = s.ale := by rw [ended_frame]
    refine ⟨u.restarted new (s.freshRoot old entry.page counter) e, ?_, ?_, ?_, fun q notNew => ?_, ?_, ?_,
      fun pg => ?_, ?_, fun atCap => ?_, fun free => ?_⟩
    · rw [frame]
    · rw [frame, count]
    · have shares (cls : Fin 3) : u.sharesFor cls = s.sharesFor cls := by unfold State.sharesFor; rw [ale]
      have prices : u.page entry.page = s.page entry.page := by unfold State.page; rw [tfs]
      rw [record, if_pos rfl, count, now, shares, prices]
      unfold State.freshRoot Record.cleared
      dsimp only
      rw [Nat.zero_add]
    · rw [record, if_neg notNew]
    · rw [frame]
      rfl
    · rw [frame, tfs]
    · rw [page]
      unfold State.pinned State.page
      rw [tfs]
    · rw [frame, count]
      rfl
    · rw [← taken, State.checkCaps_of_atCap atCap]
    · rw [← taken, State.checkCaps_of_not_atCap free]

end Sys2Proof.Machine
end

section
/-! PROOFS: acknowledged receipts: the chain freed, its pins released, and one waiting chain receipted (R115, R130,
R155–R160). -/

namespace Sys2Proof.Machine

/-! ## Pins released -/

/-- What a released pin leaves of a page (R130). -/
def Page.released (g : Page) : Page :=
  if g.state = .retired ∧ g.pins ≤ 1 then Page.cleared else { g with pins := g.pins - 1 }

theorem Page.released_of_kept {g : Page} (kept : g.state ≠ .retired ∨ 1 < g.pins) :
    g.released = { g with pins := g.pins - 1 } := if_neg (by
  rintro ⟨retired, few⟩
  obtain state | more := kept
  · exact state retired
  · omega)

theorem Page.released_iterate_of_kept (k : Nat) {g : Page} (kept : g.state ≠ .retired ∨ k < g.pins) :
    Page.released^[k] g = { g with pins := g.pins - k } := by
  induction k generalizing g with
  | zero => rfl
  | succ k ih =>
    have rest : g.state ≠ .retired ∨ k < g.pins - 1 := kept.imp id fun more => Nat.lt_sub_of_add_lt more
    rw [Function.iterate_succ_apply, Page.released_of_kept (kept.imp id (by omega)),
      ih (g := { g with pins := g.pins - 1 }) rest]
    dsimp only
    rw [Nat.sub_sub, Nat.add_comm 1 k]

theorem Page.released_iterate_of_last {k : Nat} {g : Page} (retired : g.state = .retired) (some_pin : 0 < k)
    (all : k = g.pins) : Page.released^[k] g = Page.cleared := by
  obtain _ | k := k
  · omega
  rw [Function.iterate_succ_apply', Page.released_iterate_of_kept k (.inr (by omega))]
  exact if_pos ⟨retired, by dsimp only; omega⟩

/-! ## A chain freed -/

/-- A member of a receipted chain is freed: its pin goes and its fields are cleared (R115, R130). -/
def State.freeMember (r : RecordId) (s : State) : State :=
  (match (s.record r).page with
    | some pg => s.releasePin pg
    | none => s).modRecord r fun _ => Record.cleared

theorem freeMember_frame (r : RecordId) (s : State) : s.freeMember r = { s with
    ssm := { s.ssm with records := (s.freeMember r).ssm.records }
    tfs := { s.tfs with pages := (s.freeMember r).tfs.pages } } := by
  unfold State.freeMember
  cases (s.record r).page <;> rfl

theorem record_freeMember (r q : RecordId) (s : State) :
    (s.freeMember r).record q = if q = r then Record.cleared else s.record q := by
  unfold State.freeMember
  rw [record_modRecord]
  cases (s.record r).page <;> rfl

theorem page_freeMember (r : RecordId) (s : State) (pg : PageId) :
    (s.freeMember r).page pg = if (s.record r).page = some pg then (s.page pg).released else s.page pg := by
  unfold State.freeMember
  rw [page_modRecord]
  cases (s.record r).page with
  | none => rfl
  | some x =>
    show (s.releasePin x).page pg = _
    unfold State.releasePin
    rw [page_modPage]
    by_cases same : pg = x
    · subst same; rw [if_pos rfl, if_pos rfl]; rfl
    · rw [if_neg same, if_neg (by simpa using Ne.symm same)]

theorem freeChain_cons (r : RecordId) (l : List RecordId) (s : State) :
    s.freeChain (r :: l) = (s.freeMember r).freeChain l := rfl

theorem freeChain_frame (l : List RecordId) (s : State) : s.freeChain l = { s with
    ssm := { s.ssm with records := (s.freeChain l).ssm.records }
    tfs := { s.tfs with pages := (s.freeChain l).tfs.pages } } := by
  induction l generalizing s with
  | nil => rfl
  | cons r l ih =>
    rw [freeChain_cons, ih]
    generalize (s.freeMember r).freeChain l = t
    rw [freeMember_frame]

theorem record_freeChain (l : List RecordId) (s : State) (q : RecordId) :
    (s.freeChain l).record q = if q ∈ l then Record.cleared else s.record q := by
  induction l generalizing s with
  | nil => rfl
  | cons r l ih =>
    rw [freeChain_cons, ih, record_freeMember]
    by_cases here : q = r <;> simp [here]

/-- Each member releases one pin of the page it names, and no record is freed twice. -/
theorem page_freeChain {l : List RecordId} (once : l.Nodup) (s : State) (pg : PageId) :
    (s.freeChain l).page pg =
      Page.released^[(l.filter fun q => (s.record q).page = some pg).length] (s.page pg) := by
  induction l generalizing s with
  | nil => rfl
  | cons r l ih =>
    obtain ⟨out, once⟩ := List.nodup_cons.mp once
    have others : (l.filter fun q => ((s.freeMember r).record q).page = some pg) =
        l.filter fun q => (s.record q).page = some pg := by
      refine List.filter_congr fun q mem => ?_
      rw [record_freeMember, if_neg (by rintro rfl; exact out mem)]
    rw [freeChain_cons, ih once, others, page_freeMember, List.filter_cons]
    by_cases named : (s.record r).page = some pg
    · simp only [named, if_true, decide_true, List.length_cons, Function.iterate_succ_apply]
    · simp only [named, if_false, decide_false, Bool.false_eq_true]

/-! ## Acknowledgement -/

section Ack

variable (n : Word32) (s : State) (r : Receipt)

/-- The part with the acknowledged receipt out of the queue and its chain freed (R155). -/
def State.acknowledged : State :=
  State.freeChain (s.chain r.head) { s with rcq := { s.rcq with entries := withoutReceipt n s.rcq.entries } }

theorem acknowledged_frame : s.acknowledged n r = { s with
    rcq := { s.rcq with entries := withoutReceipt n s.rcq.entries }
    ssm := { s.ssm with records := (s.acknowledged n r).ssm.records }
    tfs := { s.tfs with pages := (s.acknowledged n r).tfs.pages } } := freeChain_frame _ _

theorem record_acknowledged (q : RecordId) :
    (s.acknowledged n r).record q = if q ∈ s.chain r.head then Record.cleared else s.record q := record_freeChain ..

theorem page_acknowledged (once : (s.chain r.head).Nodup) (pg : PageId) (k : Nat)
    (count : ((s.chain r.head).filter fun q => (s.record q).page = some pg).length = k) :
    ((s.page pg).state ≠ .retired ∨ k < (s.page pg).pins →
      (s.acknowledged n r).page pg = { s.page pg with pins := (s.page pg).pins - k }) ∧
    ((s.page pg).state = .retired → 0 < k → k = (s.page pg).pins → (s.acknowledged n r).page pg = Page.cleared) := by
  have page : (s.acknowledged n r).page pg = Page.released^[k] (s.page pg) := by
    rw [← count]
    exact page_freeChain once _ pg
  rw [page]
  exact ⟨Page.released_iterate_of_kept k, Page.released_iterate_of_last⟩

variable {n s r}

theorem receiptAck_of_not_held (none : s.receiptHeld n = none) :
    receiptAck n s = .same .unknown (.queue s.queueSummary) s := by
  unfold receiptAck
  rw [none]

theorem receiptAck_of_held (held : s.receiptHeld n = some r) :
    receiptAck n s = ⟨.ok, .acknowledged n
      (if (s.acknowledged n r).ssm.waiting ≠ [] ∧ (s.acknowledged n r).receiptRoom then
        some (s.acknowledged n r).rcq.nextNumber else none), (s.acknowledged n r).drain⟩ := by
  unfold receiptAck
  rw [held]
  rfl

end Ack

/-- Settles O25: with no chain waiting the drain does nothing. -/
theorem receiptAckFreesTheChain : Obligations.ReceiptAckFreesTheChain := by
  intro p e n s r taken held idle once
  have frame := acknowledged_frame n s r
  have waiting : (s.acknowledged n r).ssm.waiting = [] := by rw [frame]; exact idle
  have drained : (s.acknowledged n r).drain = s.acknowledged n r := by
    unfold State.drain
    rw [waiting]
  refine ⟨s.acknowledged n r, ?_, frame, record_acknowledged n s r, page_acknowledged n s r once⟩
  rw [show exec (.receiptAck p n) s = .next ((receiptAck n s).send p) from serve_taken taken _,
    receiptAck_of_held held, drained, if_neg (by simp [waiting])]

/-- The chain of a head stands while the back-links of its members do. -/
theorem backLinks_congr_of_members {s t : State} (fuel : Nat) (r : RecordId)
    (links : ∀ q ∈ s.backLinks fuel r, (t.record q).backLink = (s.record q).backLink) :
    t.backLinks fuel r = s.backLinks fuel r := by
  induction fuel generalizing r with
  | zero => rfl
  | succ fuel ih =>
    have first : r ∈ s.backLinks (fuel + 1) r := by
      unfold State.backLinks
      split <;> simp
    have link := links r first
    unfold State.backLinks at links ⊢
    rw [link]
    cases named : (s.record r).backLink with
    | none => rfl
    | some earlier =>
      rw [named] at links
      dsimp only at links ⊢
      rw [ih earlier fun q mem => links q (List.mem_cons_of_mem _ mem)]

theorem chain_congr_of_members {s t : State} {head : RecordId}
    (links : ∀ q ∈ s.chain head, (t.record q).backLink = (s.record q).backLink) : t.chain head = s.chain head :=
  congrArg List.reverse (backLinks_congr_of_members 31 head fun q mem => links q (List.mem_reverse.mpr mem))

/-- The entry acknowledged leaves room for one receipt. -/
theorem room_of_held {n : Word32} {s : State} {r : Receipt} (held : s.receiptHeld n = some r)
    (bound : s.rcq.entries.length ≤ 8) : (withoutReceipt n s.rcq.entries).length < 8 := by
  have mem : r ∈ s.rcq.entries := List.mem_of_find?_eq_some held
  have length := List.length_eraseP_of_mem mem (List.find?_some held)
  have some_entry := List.length_pos_of_mem mem
  show (s.rcq.entries.eraseP _).length < 8
  omega

/-- Settles O26: an acknowledgement with chains waiting frees one chain and issues one receipt. -/
theorem receiptRequestsWorkTheQueue : Obligations.ReceiptRequestsWorkTheQueue := by
  rintro p e n s summary rfl
  refine ⟨fun taken => ⟨fun r head rest held waits bound => ?_, fun none => ?_⟩, fun taken => ?_, fun taken => ?_⟩
  · have frame := acknowledged_frame n s r
    have freed := record_acknowledged n s r
    have pages := page_acknowledged n s r
    have answer := receiptAck_of_held held
    generalize s.acknowledged n r = a at frame freed pages answer
    have waiting : a.ssm.waiting = head :: rest := by rw [frame]; exact waits
    have room : a.receiptRoom = true := by
      rw [frame]
      exact decide_eq_true (room_of_held held bound)
    have number : a.rcq.nextNumber = s.rcq.nextNumber := by rw [frame]
    have drained : a.drain = (a.setWaiting rest).issueReceipt head := by
      unfold State.drain
      rw [waiting]
      exact if_pos room
    have issued := issueReceipt_frame (a.setWaiting rest) head
    have records := record_issueReceipt (a.setWaiting rest) head
    have built := buildReceipt_issueReceipt (a.setWaiting rest) head s.rcq.nextNumber
    have chain : ((a.setWaiting rest).issueReceipt head).chain head = (a.setWaiting rest).chain head :=
      chain_congr (fun q => by rw [records]; split <;> rfl) head
    rw [drained, if_pos ⟨by simp [waiting], room⟩, number] at answer
    refine ⟨(a.setWaiting rest).issueReceipt head, (a.setWaiting rest).buildReceipt s.rcq.nextNumber head,
      by rw [← answer]; exact serve_taken taken _, ?_, built.symm, fun q mem => ?_, fun once apart => ?_⟩
    · have told : ((a.setWaiting rest).notify (.receipt ((a.setWaiting rest).buildReceipt s.rcq.nextNumber head)
          false)).mpt = (s.notify (.receipt ((a.setWaiting rest).buildReceipt s.rcq.nextNumber head) false)).mpt :=
        notify_mpt_congr (by rw [frame]; rfl) (by rw [frame]; rfl) (by rw [frame]; rfl) _
      have next : (a.setWaiting rest).rcq.nextNumber = s.rcq.nextNumber := number
      rw [next, told] at issued
      generalize (a.setWaiting rest).issueReceipt head = t at issued ⊢
      generalize (a.setWaiting rest).buildReceipt s.rcq.nextNumber head = x at issued ⊢
      rw [issued, frame]
      rfl
    · rw [records, if_pos (chain ▸ mem)]
    · have kept : (a.setWaiting rest).chain head = s.chain head := chain_congr_of_members fun q mem => by
        rw [record_setWaiting, freed, if_neg (apart q mem)]
      refine ⟨chain.trans kept, fun q => ?_, fun pg k count => ?_⟩
      · rw [records, kept, record_setWaiting, freed]
        by_cases here : q ∈ s.chain r.head
        · rw [if_neg fun mem => apart q mem here, if_pos here, if_pos here]
        · rw [if_neg here, if_neg here]
      · have page : ((a.setWaiting rest).issueReceipt head).page pg = a.page pg := by rw [issued]; rfl
        rw [page]
        exact pages once pg k count
  · rw [show exec (.receiptAck p n) s = .next ((receiptAck n s).send p) from serve_taken taken _,
      receiptAck_of_not_held none]
    rfl
  · rw [show exec (.receiptGet p n) s = .next ((receiptGet n s).send p) from serve_taken taken _]
    unfold receiptGet
    refine ⟨fun zero => ?_, fun other none => ?_, fun r other held => ?_⟩
    · rw [if_pos zero]
      rfl
    · rw [if_neg other, none]
      rfl
    · rw [if_neg other, held]
      rfl
  · rw [show exec (.setReceiptBase p n) s = .next ((setReceiptBase n s).send p) from serve_taken taken _]
    unfold setReceiptBase
    refine ⟨fun zero => ?_, fun other busy => ?_, fun other empty idle => ?_⟩
    · rw [if_pos zero]
    · rw [if_neg other, if_pos busy]
      rfl
    · rw [if_neg other, if_neg (by simp [empty, idle])]

end Sys2Proof.Machine
end

section
/-! PROOFS: the read requests and the figures they answer (R7, R20, R35, R55, R73, R99, R116, R133, R146, R175). -/

namespace Sys2Proof.Machine

/-! ## The head of a record's chain -/

theorem successor_of_backLink {s : State} {r next : RecordId} (link : (s.record next).backLink = some r)
    (unique : ∀ a b, (s.record a).backLink = some r → (s.record b).backLink = some r → a = b) :
    s.successor r = some next := by
  cases found : s.successor r with
  | none =>
    have out := List.find?_eq_none.mp found next (mem_allRecords next)
    simp [link] at out
  | some q => rw [unique q next (by simpa using List.find?_some found) link]

theorem successor_of_head {s : State} {head : RecordId} (last : ∀ q, (s.record q).backLink ≠ some head) :
    s.successor head = none := List.find?_eq_none.mpr fun q _ => by simp [last q]

/-- From the member at a place the head lies as many steps forward as members stand after it (R101). -/
theorem headFrom_of_isChain {s : State} {members : List RecordId} {head : RecordId} (chain : s.IsChain members head)
    (last : ∀ q, (s.record q).backLink ≠ some head)
    (unique : ∀ a b c, (s.record a).backLink = some c → (s.record b).backLink = some c → a = b)
    (fuel : Nat) : ∀ (i : Nat) (r : RecordId), members[i]? = some r → members.length - 1 - i ≤ fuel →
      s.headFrom fuel r = head := by
  obtain ⟨-, ends, -, linked⟩ := chain
  rw [List.getLast?_eq_getElem?] at ends
  have is_head (i : Nat) (r : RecordId) (here : members[i]? = some r) (final : members.length - 1 ≤ i) : r = head := by
    have inside := (List.getElem?_eq_some_iff.mp here).1
    have place : i = members.length - 1 := by omega
    rw [place, ends] at here
    exact (Option.some.inj here).symm
  induction fuel with
  | zero => exact fun i r here rest => is_head i r here (by omega)
  | succ fuel ih =>
    intro i r here rest
    unfold State.headFrom
    by_cases final : members.length - 1 ≤ i
    · rw [is_head i r here final, successor_of_head last]
    · have next : members[i + 1]? = some members[i + 1] := List.getElem?_eq_getElem (by omega)
      rw [successor_of_backLink (linked i r _ here next) fun a b => unique a b r]
      exact ih (i + 1) _ next (by omega)

theorem headOf_of_isChain {s : State} {members : List RecordId} {r head : RecordId} (chain : s.IsChain members head)
    (mem : r ∈ members) (last : ∀ q, (s.record q).backLink ≠ some head)
    (unique : ∀ a b c, (s.record a).backLink = some c → (s.record b).backLink = some c → a = b) :
    s.headOf r = head := by
  obtain ⟨i, here⟩ := List.mem_iff_getElem?.mp mem
  obtain ⟨short, -⟩ := id chain
  exact headFrom_of_isChain chain last unique 31 i r here (by omega)

theorem placeFrom_of_mem {head : RecordId} {before after : List RecordId} (out : head ∉ before) (place : Nat) :
    placeFrom head place (before ++ head :: after) = some (place + before.length) := by
  induction before generalizing place with
  | nil => exact if_pos rfl
  | cons r before ih =>
    obtain ⟨other, out⟩ := not_or.mp (List.mem_cons.not.mp out)
    rw [List.cons_append, placeFrom, if_neg (Ne.symm other), ih out, List.length_cons]
    congr 1; omega

theorem secondsUp_bounds (ms : Nat) : ms ≤ 1000 * secondsUp ms ∧ 1000 * secondsUp ms < ms + 1000 := by
  unfold secondsUp
  omega

/-! ## The reads of one record, bay or plan -/

theorem getBay_of_gt {x : Byte} (h : 15 < x.toNat) (s : State) : getBay x s = .refuse .badArg s := by
  unfold getBay
  rw [bayOperand_of_gt h]

theorem getBay_of_bay {x : Byte} {b : BayId} (h : x.toNat = b.val) (s : State) :
    getBay x s = .same .ok (.bay (s.bay b) (s.activeMasks b)) s := by
  unfold getBay
  rw [bayOperand_of_eq_val h]

theorem getPlan_of_gt {x : Byte} (h : 15 < x.toNat) (s : State) : getPlan x s = .refuse .badArg s := by
  unfold getPlan
  rw [planOperand_of_gt h]

theorem getPlan_of_plan {x : Byte} {q : PlanId} (h : x.toNat = q.val) (s : State) :
    getPlan x s = .same .ok (.plan (s.planFigures q)) s := by
  unfold getPlan
  rw [planOperand_of_eq_val h]

theorem getSession_of_gt {x : Byte} (h : 31 < x.toNat) (s : State) : getSession x s = .refuse .badArg s := by
  unfold getSession
  rw [recordOperand_of_gt h]

theorem getSession_of_record {x : Byte} {r : RecordId} (h : x.toNat = r.val) (s : State) :
    getSession x s = .same .ok (.session (if (s.record r).state = .free then .freeRecord
      else .record (s.record r) ((s.record r).segments.map Segment.cost) (s.chainFigures r))) s := by
  unfold getSession
  rw [recordOperand_of_eq_val h]

/-! ## The figures -/

/-- The figures of GET_STATUS are those of the budget, the nodes and the shed section (R35, R55, R73). -/
theorem getStatus_figures (s : State) (k : NodeId) : s.statusFigures.nodes[k.val] = (s.node k).figures :=
  Vector.getElem_ofFn ..

theorem names_eq (s : State) (x : PageId) (o : PlanId) :
    s.names x o = decide ((s.plan o).map PlanEntry.page = some x) := by
  unfold State.names
  cases s.plan o <;> simp

theorem namedBy_eq (s : State) (x : PageId) :
    s.namedBy x = (allPlans.filter fun o => (s.plan o).map PlanEntry.page = some x).length :=
  congrArg List.length (List.filter_congr fun o _ => names_eq s x o)

theorem planFigures_pool (s : State) (q : PlanId) (x : PageId) : (s.planFigures q).pool[x.val] =
    ⟨(s.page x).state, (s.page x).pins, (s.page x).label, (allPlans.filter fun o => (s.plan o).map PlanEntry.page
      = some x).length⟩ :=
  (Vector.getElem_ofFn ..).trans (by rw [namedBy_eq])

theorem chainFigures_of_isChain {s : State} {members : List RecordId} {r root head : RecordId}
    (chain : s.IsChain members head) (first : members.head? = some root) (isHead : s.headOf r = head) :
    (s.chainFigures r).head = head ∧ (s.chainFigures r).root = root ∧
      (s.chainFigures r).depth = (s.record head).depth ∧
      (s.chainFigures r).metered = (members.map fun q => (s.record q).metered).sum ∧
      (s.chainFigures r).idleMs = (members.map fun q => (s.record q).idleMs).sum ∧
      (s.chainFigures r).idleSeconds = (s.chainFigures r).idleMs / 1000 ∧
      (∀ pg, (s.record root).page = some pg →
        (s.chainFigures r).idleFee = (s.page pg).idleFee (s.chainFigures r).idleSeconds) ∧
      (s.chainFigures r).estimate =
        (members.map fun q => ((s.record q).segments.map Segment.cost).sum).sum + (s.chainFigures r).idleFee ∧
      ((s.record r).state ≠ .closed → (s.chainFigures r).waitingPlace = none) ∧
      (∀ before after, (s.record r).state = .closed → s.ssm.waiting = before ++ head :: after →
        head ∉ before → (s.chainFigures r).waitingPlace = some (before.length + 1)) := by
  unfold State.chainFigures
  rw [isHead]
  refine ⟨rfl, root_of_isChain chain first, rfl, chainMetered_of_isChain chain, chainIdleMs_of_isChain chain, rfl,
    fun pg pinned => ?_, estimate_of_isChain chain, fun other => if_neg other, fun before after closed waits out => ?_⟩
  · exact (congrArg (Page.idleFee · (s.idleSeconds head)) (rootPage_of_isChain chain first pinned))
  · dsimp only
    rw [if_pos closed, waits, placeFrom_of_mem out, Nat.add_comm]

/-- Settles O12: the figures of each read are those its rules list, those of a chain found from any of its members. -/
theorem readRequestsAnswer : Obligations.ReadRequestsAnswer := by
  refine fun p e s => ⟨fun taken => ?_, fun taken => serve_taken taken _, fun taken => serve_taken taken _,
    fun x taken => ?_, fun x taken => ?_, fun x taken => ?_⟩
  · refine ⟨s.statusFigures, serve_taken taken _, rfl, fun none => ?_, fun o here => ?_, rfl, rfl, rfl,
      getStatus_figures s, rfl, rfl, rfl, rfl, rfl, rfl, rfl, rfl, rfl, rfl, rfl, rfl, rfl, rfl⟩
    · exact congrArg (Option.map _) none
    · exact ⟨secondsUp o.remainingMs, congrArg (Option.map _) here, secondsUp_bounds _⟩
  · rw [show exec (.getBay p x) s = .next ((getBay x s).send p) from serve_taken taken _]
    exact ⟨fun b named => by rw [getBay_of_bay named], fun above => by rw [getBay_of_gt above]⟩
  · rw [show exec (.getSession p x) s = .next ((getSession x s).send p) from serve_taken taken _]
    refine ⟨fun r named free => ?_, fun r named used => ⟨s.chainFigures r, ?_, fun members root head chain first mem
      last unique => ?_⟩, fun above => by rw [getSession_of_gt above]⟩
    · rw [getSession_of_record named, if_pos free]
    · rw [getSession_of_record named, if_neg used]
    · exact chainFigures_of_isChain chain first (headOf_of_isChain chain mem last unique)
  · rw [show exec (.getPlan p x) s = .next ((getPlan x s).send p) from serve_taken taken _]
    refine ⟨fun q named => ⟨s.planFigures q, by rw [getPlan_of_plan named], rfl, rfl, fun none => ?_,
      fun entry pg here isPage => ?_, planFigures_pool s q, fun none => ?_, fun st here => ?_⟩,
      fun above => by rw [getPlan_of_gt above]⟩
    · exact congrArg (Option.map _) none
    · subst isPage
      exact congrArg (Option.map _) here
    · exact congrArg (Option.map _) none
    · exact congrArg (Option.map _) here

end Sys2Proof.Machine
end

section
/-! PROOFS: the tariff store: opening and discarding a page, publishing and clearing (R120, R122–R126). -/

namespace Sys2Proof.Machine

/-! ## The first of a run that holds -/

theorem find?_ofFn_id {n : Nat} {p : Fin n → Bool} {a : Fin n} :
    (List.ofFn id).find? p = some a ↔ p a = true ∧ ∀ b < a, p b = false := by
  rw [show some a = some (id a) from rfl, List.find?_ofFn_eq_some_of_injective Function.injective_id]
  simp

theorem find?_ofFn_id_eq_none {n : Nat} {p : Fin n → Bool} :
    (List.ofFn id).find? p = none ↔ ∀ a, p a = false := by
  simp [List.find?_eq_none]

theorem mem_allPlans (q : PlanId) : q ∈ allPlans := by revert q; decide

theorem mem_allPages (x : PageId) : x ∈ allPages := by revert x; decide

theorem allPages_sorted : allPages.Pairwise (· < ·) := by decide

theorem allPages_eq : allPages = List.ofFn id := by decide

theorem freePage_of_first {s : State} {pg : PageId} (free : (s.page pg).state = .free)
    (below : ∀ q, q < pg → (s.page q).state ≠ .free) : s.freePage = some pg := by
  unfold State.freePage
  rw [allPages_eq, find?_ofFn_id]
  exact ⟨decide_eq_true free, fun q lower => decide_eq_false (below q lower)⟩

theorem freePage_of_none {s : State} (none : ∀ q, (s.page q).state ≠ .free) : s.freePage = Option.none := by
  unfold State.freePage
  rw [allPages_eq, find?_ofFn_id_eq_none]
  exact fun q => decide_eq_false (none q)

/-! ## Opening a page -/

theorem useLevelOperand_of_le {x : Byte} (h : x.toNat ≤ 2) : useLevelOperand x = some x.toNat := if_pos h

theorem useLevelOperand_of_gt {x : Byte} (h : 2 < x.toNat) : useLevelOperand x = none := if_neg (by omega)

theorem presenceOperand_of_le {x : Byte} (h : x.toNat ≤ 1) : presenceOperand x = some (decide (x = 1)) := by
  have cases : x = 0 ∨ x = 1 := by
    rcases Nat.le_one_iff_eq_zero_or_eq_one.mp h with h | h
    · exact .inl (BitVec.eq_of_toNat_eq h)
    · exact .inr (BitVec.eq_of_toNat_eq h)
  obtain rfl | rfl := cases <;> decide

theorem presenceOperand_of_gt {x : Byte} (h : 1 < x.toNat) : presenceOperand x = none := by
  unfold presenceOperand
  rw [if_neg (by rintro rfl; exact absurd h (by decide)), if_neg (by rintro rfl; exact absurd h (by decide))]

section PageOpen

variable {p : Port} {label : Label} {useLevel grace presence : Byte} {rate cap : Word16} {s : State}

theorem pageOpen_of_bad (bad : ¬ (useLevel.toNat ≤ 2 ∧ rate.toNat ≤ 1000 ∧ grace.toNat ≤ 240 ∧ presence.toNat ≤ 1)) :
    pageOpen p label useLevel rate grace presence cap s = .refuse .badArg s := by
  unfold pageOpen
  by_cases level : useLevel.toNat ≤ 2
  · by_cases given : presence.toNat ≤ 1
    · rw [useLevelOperand_of_le level, presenceOperand_of_le given]
      exact if_pos (by omega)
    · rw [presenceOperand_of_gt (by omega)]
      cases useLevelOperand useLevel <;> rfl
  · rw [useLevelOperand_of_gt (by omega)]

theorem pageOpen_of_good (good : useLevel.toNat ≤ 2 ∧ rate.toNat ≤ 1000 ∧ grace.toNat ≤ 240 ∧ presence.toNat ≤ 1) :
    pageOpen p label useLevel rate grace presence cap s =
      if s.tfs.staging.isSome then .refuse .busy s
      else
        match s.freePage with
        | none => .refuse .storeFull s
        | some pg =>
          let opened : Page :=
            { Page.cleared with
              state := .staging
              label := label
              useLevel := useLevel.toNat
              idleRate := rate.toNat
              idleGrace := grace.toNat
              idleCap := if presence = 1 then some cap.toNat else none }
          ⟨.ok, .page pg, (s.modPage pg fun _ => opened).setStaging (some ⟨pg, p⟩)⟩ := by
  obtain ⟨level, least, short, given⟩ := good
  unfold pageOpen
  rw [useLevelOperand_of_le level, presenceOperand_of_le given]
  dsimp only
  rw [if_neg (by omega)]
  simp only [decide_eq_true_eq] <;> rfl

end PageOpen

/-- Settles O27: the refusals of PAGE_OPEN are its branches in their order, and the page is the first FREE one. -/
theorem pageOpenAndDiscard : Obligations.PageOpenAndDiscard := by
  refine fun p e s => ⟨?_, fun taken => ?_⟩
  · rintro label useLevel grace presence rate cap good c rfl taken isGood
    rw [show exec (.pageOpen p label useLevel rate grace presence cap) s =
      .next ((pageOpen p label useLevel rate grace presence cap s).send p) from serve_taken taken _]
    refine ⟨fun bad => ?_, fun fits busy => ?_, fun fits idle none => ?_, fun pg fits idle free below => ?_⟩
    · rw [pageOpen_of_bad (isGood.not.mp bad)]
    · rw [pageOpen_of_good (isGood.mp fits), if_pos (Option.isSome_iff_ne_none.mpr busy)]
    · rw [pageOpen_of_good (isGood.mp fits), if_neg (by simp [idle]), freePage_of_none none]
    · rw [pageOpen_of_good (isGood.mp fits), if_neg (by simp [idle]), freePage_of_first free below]
      rfl
  · rw [show exec (.pageDiscard p) s = .next ((pageDiscard s).send p) from serve_taken taken _]
    unfold pageDiscard
    refine ⟨fun none => ?_, fun st here => ?_⟩
    · rw [none]
    · rw [here]
      rfl

/-! ## Pages that entries name -/

theorem namedBy_pos_iff (s : State) (x : PageId) :
    0 < s.namedBy x ↔ ∃ q : PlanId, (s.plan q).map PlanEntry.page = some x := by
  rw [namedBy_eq, List.length_pos_iff_exists_mem]
  simp [mem_allPlans]

/-- What a page that no entry names any more becomes (R124). -/
def Page.judged (g : Page) : Page := if 0 < g.pins then { g with state := .retired } else Page.cleared

theorem judge_of_named {s : State} {x : PageId} (named : 0 < s.namedBy x) : s.judge x = s := if_pos named

theorem judge_of_not_named {s : State} {x : PageId} (free : ¬ 0 < s.namedBy x) :
    s.judge x = s.modPage x Page.judged := if_neg free

theorem judge_frame (x : PageId) (s : State) :
    s.judge x = { s with tfs := { s.tfs with pages := (s.judge x).tfs.pages } } := by
  unfold State.judge
  split <;> rfl

theorem namedBy_congr {s t : State} (plans : t.tfs.plans = s.tfs.plans) (x : PageId) : t.namedBy x = s.namedBy x := by
  rw [namedBy_eq, namedBy_eq]
  unfold State.plan
  rw [plans]

theorem page_judge (x y : PageId) (s : State) :
    (s.judge x).page y = if y = x ∧ ¬ 0 < s.namedBy x then (s.page x).judged else s.page y := by
  by_cases named : 0 < s.namedBy x
  · rw [judge_of_named named, if_neg (by simp [named])]
  · rw [judge_of_not_named named, page_modPage]
    simp [named]

theorem judges_frame (l : List PageId) (s : State) :
    l.foldl (fun t old => t.judge old) s =
      { s with tfs := { s.tfs with pages := (l.foldl (fun t old => t.judge old) s).tfs.pages } } := by
  induction l generalizing s with
  | nil => rfl
  | cons x l ih =>
    rw [List.foldl_cons, ih]
    generalize l.foldl (fun t old => t.judge old) (s.judge x) = t
    rw [judge_frame]

/-- Judging a run of pages, each once: the entries stand, so each is judged by the entries before. -/
theorem page_judges {l : List PageId} (once : l.Nodup) (s : State) (y : PageId) :
    (l.foldl (fun t old => t.judge old) s).page y =
      if y ∈ l ∧ ¬ 0 < s.namedBy y then (s.page y).judged else s.page y := by
  induction l generalizing s with
  | nil => simp
  | cons x l ih =>
    obtain ⟨out, once⟩ := List.nodup_cons.mp once
    have named := namedBy_congr (t := s.judge x) (s := s) (by rw [judge_frame]) y
    rw [List.foldl_cons, ih once, named, page_judge]
    by_cases here : y = x
    · subst here
      simp [out]
    · simp [here]

/-! ## Publishing -/

theorem mem_planSet (plans : Word16) (q : PlanId) : q ∈ planSet plans ↔ plans.getLsbD q.val = true := by
  simp [planSet, mem_allPlans]

theorem exists_mem_planSet {plans : Word16} (some_plan : plans ≠ 0) : ∃ q, q ∈ planSet plans := by
  by_contra none
  refine some_plan (BitVec.eq_of_getLsbD_eq fun i inside => ?_)
  have out := (mem_planSet plans ⟨i, inside⟩).not.mp fun mem => none ⟨_, mem⟩
  simpa using out

theorem any_protected_iff (s : State) (plans : Word16) :
    (planSet plans).any s.isProtected = true ↔ s.settings.protectedPlans &&& plans ≠ 0 := by
  rw [List.any_eq_true]
  constructor
  · rintro ⟨q, mem, isProtected⟩ none
    have bit := congrArg (fun w => BitVec.getLsbD w q.val) none
    rw [BitVec.getLsbD_and, (mem_planSet plans q).mp mem, show s.settings.protectedPlans.getLsbD q.val = true from
      isProtected] at bit
    simp at bit
  · intro some_plan
    obtain ⟨q, mem⟩ := exists_mem_planSet some_plan
    have bits := (mem_planSet _ q).mp mem
    rw [BitVec.getLsbD_and, Bool.and_eq_true] at bits
    exact ⟨q, (mem_planSet plans q).mpr bits.2, bits.1⟩

theorem mem_oldPages (s : State) (plans : Word16) (x : PageId) : x ∈ s.oldPages plans ↔
    ∃ q : PlanId, plans.getLsbD q.val = true ∧ (s.plan q).map PlanEntry.page = some x := by
  simp [State.oldPages, mem_allPages, mem_planSet, names_eq]

theorem oldPages_sorted (s : State) (plans : Word16) : (s.oldPages plans).Pairwise (· < ·) :=
  allPages_sorted.filter _

/-- A run of entries written. -/
def State.setPlans (l : List PlanId) (x : PlanEntry) (s : State) : State :=
  l.foldl (fun t p => t.setPlan p (some x)) s

theorem setPlans_frame (l : List PlanId) (x : PlanEntry) (s : State) :
    s.setPlans l x = { s with tfs := { s.tfs with plans := (s.setPlans l x).tfs.plans } } := by
  induction l generalizing s with
  | nil => rfl
  | cons q l ih =>
    show (s.setPlan q (some x)).setPlans l x = { s with tfs := { s.tfs with
      plans := ((s.setPlan q (some x)).setPlans l x).tfs.plans } }
    rw [ih]
    rfl

theorem plan_setPlans (l : List PlanId) (x : PlanEntry) (s : State) (q : PlanId) :
    (s.setPlans l x).plan q = if q ∈ l then some x else s.plan q := by
  induction l generalizing s with
  | nil => rfl
  | cons r l ih =>
    show ((s.setPlan r (some x)).setPlans l x).plan q = _
    rw [ih, plan_setPlan]
    by_cases here : q = r <;> simp [here]

section Publish

variable (pg : PageId) (plans : Word16) (level : Nat) (s : State)

/-- The part with the entries written, the staging page PUBLISHED and the staging state closed (R124). -/
def State.entered : State :=
  ((s.setPlans (planSet plans) ⟨pg, level⟩).modPage pg fun g => { g with state := .published }).setStaging none

theorem publish_eq : s.publish pg plans level =
    (s.oldPages plans).foldl (fun t old => t.judge old) (s.entered pg plans level) := rfl

theorem publish_frame : s.publish pg plans level = { s with
    tfs := ⟨(s.setPlans (planSet plans) ⟨pg, level⟩).tfs.plans, (s.publish pg plans level).tfs.pages, none⟩ } := by
  rw [publish_eq, judges_frame]
  unfold State.entered
  rw [setPlans_frame]
  rfl

theorem plan_publish (q : PlanId) : (s.publish pg plans level).plan q =
    if plans.getLsbD q.val then some ⟨pg, level⟩ else s.plan q := by
  rw [publish_frame]
  refine (plan_setPlans (planSet plans) ⟨pg, level⟩ s q).trans ?_
  simp only [mem_planSet]

theorem page_publish (x : PageId) : (s.publish pg plans level).page x =
    if x ∈ s.oldPages plans ∧ ¬ 0 < (s.publish pg plans level).namedBy x then
      ((s.entered pg plans level).page x).judged
    else (s.entered pg plans level).page x := by
  have named := namedBy_congr (t := s.publish pg plans level) (s := s.entered pg plans level) (by
    rw [publish_frame]; rfl) x
  rw [named]
  exact page_judges ((oldPages_sorted s plans).imp fun less => ne_of_lt less) _ _

theorem page_entered (x : PageId) : (s.entered pg plans level).page x =
    if x = pg then { s.page pg with state := .published } else s.page x := by
  unfold State.entered
  rw [setPlans_frame]
  exact put_at ..

end Publish

theorem lowestUnwritten_of_all {g : Page} (all : ∀ i : Fin 48, g.written[i.val] = true) : g.lowestUnwritten = none :=
  find?_ofFn_id_eq_none.mpr fun i => by rw [all i]; rfl

theorem lowestUnwritten_of_first {g : Page} {i : Fin 48} (unwritten : g.written[i.val] = false)
    (below : ∀ k : Fin 48, k < i → g.written[k.val] = true) : g.lowestUnwritten = some i :=
  find?_ofFn_id.mpr ⟨by rw [unwritten]; rfl, fun k lower => by rw [below k lower]; rfl⟩

section PagePublish

variable {e : Nat} {p : Port} {plans : Word16} {level : Byte} {s : State} {st : Staging}

theorem pagePublish_of_closed (closed : s.tfs.staging = none) :
    pagePublish e p plans level s = .refuse .notActive s := by
  unfold pagePublish
  rw [closed]

theorem pagePublish_of_other (opened : s.tfs.staging = some st) (other : st.owner ≠ p) :
    pagePublish e p plans level s = .refuse .busy s := by
  unfold pagePublish
  rw [opened]
  exact if_pos other

theorem pagePublish_of_bad (opened : s.tfs.staging = some st) (own : st.owner = p)
    (bad : plans = 0 ∨ 2 < level.toNat) : pagePublish e p plans level s = .refuse .badArg s := by
  unfold pagePublish
  rw [opened]
  dsimp only
  rw [if_neg (not_not.mpr own)]
  by_cases above : 2 < level.toNat
  · rw [useLevelOperand_of_gt above]
  · rw [useLevelOperand_of_le (by omega)]
    exact if_pos (bad.resolve_right above)

theorem pagePublish_of_denied (opened : s.tfs.staging = some st) (own : st.owner = p) (some_plan : plans ≠ 0)
    (fits : level.toNat ≤ 2) (above : 0 < e) (named : s.settings.protectedPlans &&& plans ≠ 0) :
    pagePublish e p plans level s = .refuse .denied s := by
  unfold pagePublish
  rw [opened]
  dsimp only
  rw [if_neg (not_not.mpr own), useLevelOperand_of_le fits]
  dsimp only
  rw [if_neg some_plan]
  exact if_pos ⟨(any_protected_iff s plans).mpr named, above⟩

theorem pagePublish_of_allowed (opened : s.tfs.staging = some st) (own : st.owner = p) (some_plan : plans ≠ 0)
    (fits : level.toNat ≤ 2) (allowed : e = 0 ∨ s.settings.protectedPlans &&& plans = 0) :
    pagePublish e p plans level s =
      match (s.page st.page).lowestUnwritten with
      | some slot => ⟨.incomplete, .unwritten slot.val (s.page st.page).writtenCount, s⟩
      | none =>
        let done := s.publish st.page plans level.toNat
        ⟨.ok, .published st.page ((s.oldPages plans).map fun pg => (pg, (done.page pg).state)), done⟩ := by
  have open_to_all : ¬ ((planSet plans).any s.isProtected = true ∧ 0 < e) := by
    rw [any_protected_iff]
    rintro ⟨named, above⟩
    obtain level | none := allowed
    · omega
    · exact named none
  unfold pagePublish
  rw [opened]
  dsimp only
  rw [if_neg (not_not.mpr own), useLevelOperand_of_le fits]
  dsimp only
  rw [if_neg some_plan]
  exact if_neg open_to_all

end PagePublish

/-! ## Clearing -/

section PlanClear

variable {e : Nat} {x : Byte} {q : PlanId} {s : State}

theorem planClear_of_gt (above : 15 < x.toNat) : planClear e x s = .refuse .badArg s := by
  unfold planClear
  rw [planOperand_of_gt above]

theorem planClear_of_plan (named : x.toNat = q.val) : planClear e x s =
    if s.isProtected q ∧ 0 < e then .refuse .denied s
    else
      match s.plan q with
      | none => .refuse .notActive s
      | some entry =>
        let done := (s.setPlan q none).judge entry.page
        ⟨.ok, .cleared entry.page (done.page entry.page).state, done⟩ := by
  unfold planClear
  rw [planOperand_of_eq_val named] <;> rfl

/-- An entry that is cleared lets its page go, which is judged by the entries that stand (R125). -/
theorem judge_setPlan_none (s : State) (q : PlanId) (x : PageId) (g : Page)
    (kept : (∃ o : PlanId, o ≠ q ∧ (s.plan o).map PlanEntry.page = some x) → g = s.page x)
    (free : (¬ ∃ o : PlanId, o ≠ q ∧ (s.plan o).map PlanEntry.page = some x) → g = (s.page x).judged) :
    (s.setPlan q none).judge x = { s with
      tfs := { s.tfs with plans := put s.tfs.plans q none, pages := put s.tfs.pages x g } } := by
  have named : 0 < (s.setPlan q none).namedBy x ↔ ∃ o : PlanId, o ≠ q ∧ (s.plan o).map PlanEntry.page = some x := by
    rw [namedBy_pos_iff]
    refine exists_congr fun o => ?_
    rw [plan_setPlan]
    by_cases here : o = q <;> simp [here]
  by_cases held : 0 < (s.setPlan q none).namedBy x
  · rw [judge_of_named held, kept (named.mp held),
      show put s.tfs.pages x (s.page x) = s.tfs.pages from Vector.set_getElem_self ..]
    rfl
  · rw [judge_of_not_named held, free (named.not.mp held)]
    rfl

end PlanClear

/-- Settles O29: the entries are written first, and each old page is judged by the entries as they then stand. -/
theorem pagePublishMovesTheDirectory : Obligations.PagePublishMovesTheDirectory := by
  refine ⟨fun p e plans level s pg taken opened some_plan fits allowed all => ?_, fun p e plans level s taken => ?_,
    fun p e x s taken => ?_⟩
  · have answer := pagePublish_of_allowed opened rfl some_plan fits allowed
    dsimp only at answer
    rw [lowestUnwritten_of_all all] at answer
    dsimp only at answer
    have plan := plan_publish pg plans level.toNat s
    have page := page_publish pg plans level.toNat s
    have entered := page_entered pg plans level.toNat s
    have named : 0 < (s.publish pg plans level.toNat).namedBy pg := by
      rw [namedBy_pos_iff]
      obtain ⟨q, mem⟩ := exists_mem_planSet some_plan
      exact ⟨q, by rw [plan, if_pos ((mem_planSet plans q).mp mem)]; rfl⟩
    refine ⟨s.publish pg plans level.toNat, (s.oldPages plans).map fun x =>
      (x, ((s.publish pg plans level.toNat).page x).state), ?_, ?_, ?_, plan, ?_, fun x other => ?_, fun x st => ?_, ?_⟩
    · rw [← answer]
      exact serve_taken taken _
    · rw [publish_frame]
    · rw [publish_frame]
    · rw [page, if_neg fun free => free.2 named, entered, if_pos rfl]
    · rw [page, entered, if_neg other]
      refine if_congr (and_congr (mem_oldPages s plans x) (not_congr (namedBy_pos_iff _ x))) rfl rfl
    · rw [← mem_oldPages, List.mem_map]
      constructor
      · rintro ⟨y, mem, pair⟩
        obtain ⟨rfl, rfl⟩ := Prod.mk.inj pair
        exact ⟨mem, rfl⟩
      · rintro ⟨mem, rfl⟩
        exact ⟨x, mem, rfl⟩
    · rw [List.map_map]
      exact (List.map_id _).symm ▸ oldPages_sorted s plans
  · rw [show exec (.pagePublish p plans level) s = .next ((pagePublish e p plans level s).send p)
      from serve_taken taken _]
    refine ⟨fun closed => by rw [pagePublish_of_closed closed], fun st opened =>
      ⟨fun other => by rw [pagePublish_of_other opened other], fun own bad => by rw [pagePublish_of_bad opened own bad],
        fun own some_plan fits above named => by rw [pagePublish_of_denied opened own some_plan fits above named],
        fun i own some_plan fits allowed unwritten below => ?_⟩⟩
    rw [pagePublish_of_allowed opened own some_plan fits allowed, lowestUnwritten_of_first unwritten below]
    rfl
  · rw [show exec (.planClear p x) s = .next ((planClear e x s).send p) from serve_taken taken _]
    refine ⟨fun above => by rw [planClear_of_gt above], fun q named => ⟨fun isProtected above => ?_, fun allowed =>
      ⟨fun absent => ?_, fun entry pg here isPage => ?_⟩⟩⟩
    · rw [planClear_of_plan named, if_pos ⟨isProtected, above⟩]
    all_goals
      have open_to_all : ¬ (s.isProtected q = true ∧ 0 < e) := by
        rintro ⟨isProtected, above⟩
        obtain open_plan | level := allowed
        · exact absurd (isProtected.symm.trans open_plan) (by decide)
        · omega
      rw [planClear_of_plan named, if_neg open_to_all]
    · rw [absent]
    · rw [here]
      dsimp only
      rw [judge_setPlan_none s q entry.page pg (fun kept => by rw [isPage, if_pos kept])
        fun free => by rw [isPage, if_neg free]; rfl]
      show Host.Outcome.next
        ((Answer.mk .ok (.cleared entry.page ((put s.tfs.pages entry.page pg)[entry.page.val]).state)
        _).send p) = _
      rw [put_at, if_pos rfl]

end Sys2Proof.Machine
end

section
/-! PROOFS: the bay link: committed schedules, grants, reports and meters (R3, R5, R9, R12, R13, R15–R19). -/

namespace Sys2Proof.Machine

/-! ## Clashes of a schedule -/

theorem allBays_sorted : allBays.Pairwise (· < ·) := by decide

theorem twoOwners_eq_none {holds : BayId → Bool} (unique : ∀ b c, holds b = true → holds c = true → b = c) :
    twoOwners holds = none := by
  unfold twoOwners
  have sorted := allBays_sorted.filter holds
  have held : ∀ b ∈ allBays.filter holds, holds b = true := fun b mem => (List.mem_filter.mp mem).2
  cases owners : allBays.filter holds with
  | nil => rfl
  | cons a rest =>
    cases rest with
    | nil => rfl
    | cons b rest =>
      rw [owners] at sorted held
      have less : a < b := List.rel_of_pairwise_cons sorted (by simp)
      exact absurd (unique a b (held a (by simp)) (held b (by simp))) (ne_of_lt less)

theorem twoOwners_eq_some {holds : BayId → Bool} {first second : BayId} (less : first < second)
    (one : holds first = true) (two : holds second = true)
    (lowest : ∀ b, holds b = true → b = first ∨ second ≤ b) : twoOwners holds = some (first, second) := by
  unfold twoOwners
  have sorted := allBays_sorted.filter holds
  have held : ∀ b, b ∈ allBays.filter holds ↔ holds b = true := fun b => by simp [mem_allBays]
  cases owners : allBays.filter holds with
  | nil => simpa [owners, one] using held first
  | cons a rest =>
    rw [owners] at sorted held
    have head : a = first := by
      obtain same | above := lowest a ((held a).mp (by simp))
      · exact same
      · obtain same | later := List.mem_cons.mp ((held first).mpr one)
        · exact same.symm
        · exact absurd (List.rel_of_pairwise_cons sorted later) (not_lt.mpr (less.trans_le above).le)
    subst head
    have inside : second ∈ rest := (List.mem_cons.mp ((held second).mpr two)).resolve_left (ne_of_gt less)
    cases rest with
    | nil => simp at inside
    | cons b rest =>
      have above : second ≤ b := (lowest b ((held b).mp (by simp))).resolve_left
        (ne_of_gt (List.rel_of_pairwise_cons sorted (by simp)))
      obtain same | later := List.mem_cons.mp inside
      · rw [same]
      · exact absurd (List.rel_of_pairwise_cons (List.pairwise_cons.mp sorted).2 later) (not_lt.mpr above)

/-- The lowest slot of a run that has two owners. -/
theorem findSome?_range {α : Type} {f : Nat → Option α} {n size : Nat} {a : α} (inside : n < size)
    (found : f n = some a)
    (below : ∀ k, k < n → f k = none) : (List.range size).findSome? f = some a := by
  obtain ⟨rest, rfl⟩ : ∃ rest, size = n + (rest + 1) := ⟨size - n - 1, by omega⟩
  rw [List.range_add, List.findSome?_append, List.findSome?_eq_none_iff.mpr fun k mem =>
    below k (List.mem_range.mp mem),
    List.range_succ_eq_map]
  simp [found]

/-- The lowest link slot of one direction with two owners. -/
def slotClash (copy : Vector Masks 16) (downstream : Bool) (size : Nat) : Option (Nat × BayId × BayId) :=
  (List.range size).findSome? fun n =>
    (twoOwners fun b => if downstream then copy[b.val].down.getLsbD n else copy[b.val].up.getLsbD n).map
      fun owners => (n, owners)

theorem downClash_eq (copy : Vector Masks 16) : downClash copy = slotClash copy true 16 := rfl

theorem upClash_eq (copy : Vector Masks 16) : upClash copy = slotClash copy false 32 := rfl

section Clash

variable {copy : Vector Masks 16} {downstream : Bool} {size : Nat}

theorem slotClash_of_none (none : NoClashBelow copy downstream size) : slotClash copy downstream size =
    Option.none := by
  refine List.findSome?_eq_none_iff.mpr fun n mem => ?_
  rw [twoOwners_eq_none fun b c hb hc => none n b c (List.mem_range.mp mem) hb hc]
  rfl

theorem slotClash_of_lowest {slot : Nat} {first second : BayId} (inside : slot < size)
    (clash : LowestClash copy downstream slot first second) :
    slotClash copy downstream size = some (slot, first, second) := by
  obtain ⟨less, one, two, lowest, below⟩ := clash
  refine findSome?_range inside ?_ fun n lower => ?_
  · rw [twoOwners_eq_some less (holds := fun b =>
      if downstream then copy[b.val].down.getLsbD slot else copy[b.val].up.getLsbD slot) one two lowest]
    rfl
  · rw [twoOwners_eq_none fun b c hb hc => below n b c lower hb hc]
    rfl

end Clash

theorem expandMasks_eq (enabled : Bool) (b : BayId) (m : Masks) : expandMasks enabled b m =
    if enabled = false then ⟨0, 0⟩ else if m = ⟨0, 0⟩ then ⟨1#16 <<< b.val, 3#32 <<< (2 * b.val)⟩ else m := by
  obtain ⟨down, up⟩ := m
  unfold expandMasks Masks.defaultSlots
  cases enabled <;> simp

/-- Settles O32: the expanded copy is searched downstream first. -/
theorem commitScheduleChecksTheSlots : Obligations.CommitScheduleChecksTheSlots := by
  intro p e s copy taken isCopy
  have expanded : s.expanded = copy := Vector.ext fun i inside => by
    have entry := isCopy ⟨i, inside⟩
    dsimp only at entry
    rw [entry]
    unfold State.expanded
    rw [Vector.getElem_ofFn, expandMasks_eq]
  rw [show exec (.commitSchedule p) s = .next ((commitSchedule s).send p) from serve_taken taken _]
  unfold commitSchedule
  rw [expanded, downClash_eq, upClash_eq]
  refine ⟨fun down up => ?_, fun slot first second clash => ?_, fun slot first second down clash => ?_⟩
  · rw [slotClash_of_none down, slotClash_of_none up]
  · obtain ⟨-, one, -⟩ := id clash
    rw [slotClash_of_lowest (BitVec.lt_of_getLsbD one) clash]
  · obtain ⟨-, one, -⟩ := id clash
    rw [slotClash_of_none down, slotClash_of_lowest (BitVec.lt_of_getLsbD one) clash]

/-! ## The owner of a link slot -/

theorem find?_allBays_eq_some {holds : BayId → Bool} {b : BayId} (own : holds b = true)
    (others : ∀ c, c ≠ b → holds c = false) : allBays.find? holds = some b := by
  cases found : allBays.find? holds with
  | none => exact absurd own (by simpa using List.find?_eq_none.mp found b (mem_allBays b))
  | some c =>
    by_contra other
    exact absurd (List.find?_some found) (by simp [others c fun same => other (by rw [same])])

theorem downOwner_of_owns {s : State} {slot : Fin 16} {b : BayId} (owns : s.OwnsDown slot b) :
    s.downOwner slot = some b := find?_allBays_eq_some owns.1 owns.2

theorem upOwner_of_owns {s : State} {slot : Fin 32} {b : BayId} (owns : s.OwnsUp slot b) :
    s.upOwner slot = some b := find?_allBays_eq_some owns.1 owns.2

/-! ## Grants -/

theorem baseGrant_of_none {s : State} (none : s.blc.grantSource = none) (b : BayId) : s.baseGrant b = 0 := by
  unfold State.baseGrant
  rw [none]

theorem baseGrant_of_some {s : State} {set : GrantSet} (source : s.blc.grantSource = some set) (b : BayId) :
    s.baseGrant b = set.grants[b.val] := by
  unfold State.baseGrant
  rw [source]

/-- The grant of a GRANT frame is 0 under each of the zero-grant conditions (R18). -/
theorem grantFor_eq_zero {s : State} {b : BayId} (zero : s.blc.grantSource = none ∨ (s.bay b).link ≠ .online ∨
    s.liveIn b .active = false ∨ (s.bay b).lastStatus.vehicle ≠ .demanding) : s.grantFor b = 0 := by
  refine if_neg ?_
  rintro ⟨online, active, demanding, base⟩
  obtain none | offline | idle | other := zero
  · exact base (baseGrant_of_none none b)
  · exact offline online
  · exact absurd (active.symm.trans idle) (by decide)
  · exact other demanding

theorem grantFor_of_source {s : State} {b : BayId} {set : GrantSet} (source : s.blc.grantSource = some set)
    (online : (s.bay b).link = .online) (active : s.liveIn b .active = true)
    (demanding : (s.bay b).lastStatus.vehicle = .demanding) :
    s.grantFor b = if set.grants[b.val] = 0 then 0 else min set.grants[b.val] (s.bay b).lastStatus.heldRequest := by
  unfold State.grantFor
  rw [baseGrant_of_some source]
  by_cases zero : set.grants[b.val] = 0 <;> simp [online, active, demanding, zero]

theorem beBytes_two (n : Nat) : beBytes 2 n = [BitVec.ofNat 8 (n / 256), BitVec.ofNat 8 n] := by simp [beBytes]

theorem grantPayload_eq (b : BayId) (g : Nat) (code : DisplayCode) (sweep : Word32) : grantPayload b g code sweep =
    [BitVec.ofNat 8 b.val, BitVec.ofNat 8 (g / 256), BitVec.ofNat 8 g, code.value, BitVec.ofNat 8 sweep.toNat] := by
  unfold grantPayload
  rw [beBytes_two]
  rfl

/-- Settles O34: the frame carries the grant and the code of the tables. -/
theorem grantFrameFollowsTheTables : Obligations.GrantFrameFollowsTheTables := by
  refine fun slot s => ⟨fun b owns => ⟨s.grantFor b, s.displayFor b, ?_, grantFor_eq_zero,
    fun set source online active demanding => grantFor_of_source source online active demanding, ?_⟩, fun none => ?_⟩
  · show execGrant slot s = _
    unfold execGrant
    rw [downOwner_of_owns owns]
    show Host.Outcome.next (s.sendGrant b) = _
    unfold State.sendGrant grantFrame
    dsimp only
    rw [grantPayload_eq]
    rfl
  · unfold State.displayFor State.reserved
    simp only [Option.isNone_iff_eq_none, Option.isSome_iff_ne_none]
  · have free : s.downOwner slot = Option.none := List.find?_eq_none.mpr fun b _ => by
      rw [none b]; decide
    show execGrant slot s = _
    unfold execGrant
    rw [free]

/-! ## Reports -/

theorem exec_status_of_owns {s : State} {slot : Fin 32} {b : BayId} {heard : List Byte} {corrected : Bool}
    {f : StatusFrame} (owns : s.OwnsUp slot b) (frame : upstream heard = .status corrected f) :
    exec (.status slot heard) s = .next (if s.scheduled b then ((s.countValid b corrected).hear b).takeStatus b f
      else s.countValid b corrected) := by
  show execStatus slot heard s = _
  unfold execStatus
  rw [upOwner_of_owns owns, frame]

theorem exec_meter_of_owns {s : State} {slot : Fin 32} {b : BayId} {heard : List Byte} {corrected : Bool}
    {f : MeterFrame} (owns : s.OwnsUp slot b) (frame : upstream heard = .meter corrected f) :
    exec (.meter slot heard) s = .next (if s.scheduled b then ((s.countValid b corrected).hear b).takeMeter b f
      else s.countValid b corrected) := by
  show execMeter slot heard s = _
  unfold execMeter
  rw [upOwner_of_owns owns, frame]

theorem hear_modBay (s : State) (b : BayId) (f : Bay → Bay) : (s.modBay b f).hear b = { s with
    blc := { s.blc with
      bays := put s.blc.bays b { f (s.bay b) with link := .online, missCount := 0 }
      heard := put s.blc.heard b true } } := by
  unfold State.hear State.modBay State.bay
  simp only [put_self, put_put]

theorem effectiveReport_of_fields {cable : Nat} {f : StatusFrame} {report : Report}
    (vehicle : report.vehicle = (if f.vehicle = .demanding ∧ f.requested = 0 then .plugged else f.vehicle))
    (request : report.heldRequest = (if f.requested = 0 then 0 else if f.requested < 60 then 60
      else min (min f.requested cable) 320))
    (fault : report.faultCode = f.faultCode) (token : report.token = f.token) :
    effectiveReport cable f = report := by
  obtain ⟨v, h, c, t⟩ := report
  dsimp only at vehicle request fault token
  subst vehicle request fault token
  unfold effectiveReport heldRequest
  rw [Nat.min_assoc]

/-- Settles O36: the report is heard, then judged by the bay's last one, and then stored. -/
theorem statusStoresTheReport : Obligations.StatusStoresTheReport := by
  intro slot b heard corrected f s counted owns frame isCounted
  have exec_eq := exec_status_of_owns owns frame
  refine ⟨fun unscheduled => ?_, fun report online scheduled isOnline vehicle request fault token => ?_⟩
  · rw [exec_eq, unscheduled, isCounted]
    rfl
  · have isReport := effectiveReport_of_fields vehicle request fault token
    have heardBay : (s.countValid b corrected).hear b = online := by
      rw [isOnline, isCounted]
      exact hear_modBay s b _
    have entry : online.bay b = { counted with link := .online, missCount := 0 } := by
      rw [isOnline]
      exact put_self ..
    have settings : online.settings = s.settings := by rw [isOnline]; rfl
    have now : online.now = s.now := by rw [isOnline]; rfl
    have last : (online.bay b).lastStatus = (s.bay b).lastStatus := by
      rw [entry, isCounted]; split <;> rfl
    have time : (online.bay b).lastStatusTime = (s.bay b).lastStatusTime := by
      rw [entry, isCounted]; split <;> rfl
    refine ⟨_, rfl, ?_⟩
    rw [exec_eq, if_pos scheduled, heardBay]
    unfold State.takeStatus
    rw [settings, isReport, last, time, now]
    rfl

/-! ## Meters -/

/-- Settles O40: the counter is read, and the delta goes to the session manager or to the unbilled Wh. -/
theorem meterReadsTheCounter : Obligations.MeterReadsTheCounter := by
  intro slot b heard corrected f s counted owns frame isCounted
  have exec_eq := exec_meter_of_owns owns frame
  refine ⟨fun unscheduled => ?_, fun delta jump read online scheduled first near far isRead isOnline => ?_⟩
  · rw [exec_eq, unscheduled, isCounted]
    rfl
  · have isDelta : meterDelta (s.bay b).lastCounter f.counter = (delta, jump) := by
      unfold meterDelta
      cases counter : (s.bay b).lastCounter with
      | none =>
        obtain ⟨rfl, rfl⟩ := first counter
        rfl
      | some last =>
        dsimp only
        split
        next small => obtain ⟨rfl, rfl⟩ := near last counter small; rfl
        next large => obtain ⟨rfl, rfl⟩ := far last counter (by omega); rfl
    have power : lastPowerOf f.power = (max 0 (min f.power 2000000)).toNat := by
      unfold lastPowerOf
      omega
    have heardBay : (s.countValid b corrected).hear b = { s with
        blc := { s.blc with
          bays := put s.blc.bays b { counted with link := .online, missCount := 0 }
          heard := put s.blc.heard b true } } := by
      rw [isCounted]
      exact hear_modBay s b _
    have last : counted.lastCounter = (s.bay b).lastCounter := by rw [isCounted]; split <;> rfl
    have jumps : counted.jumpCount = (s.bay b).jumpCount := by rw [isCounted]; split <;> rfl
    have session : counted.session = (s.bay b).session := by rw [isCounted]; split <;> rfl
    have taken : ((s.countValid b corrected).hear b).takeMeter b f = online.routeDelta b delta f.counter := by
      have entry : ((s.countValid b corrected).hear b).bay b = { counted with link := .online, missCount := 0 } := by
        rw [heardBay]; exact put_self ..
      have readBay : ((s.countValid b corrected).hear b).readMeter b f = online := by
        unfold State.readMeter State.modBay
        rw [entry]
        dsimp only
        rw [last, isDelta, power, jumps, heardBay, isOnline, isRead]
        dsimp only
        rw [put_put]
        cases jump
        · rw [if_neg (by decide), if_neg (by decide)]
          congr 4
          simp
        · rfl
      unfold State.takeMeter
      rw [readBay, entry]
      dsimp only
      rw [last, isDelta]
    have live : (online.bay b).session = (s.bay b).session := by
      rw [isOnline]
      show ((put s.blc.bays b read)[b.val]).session = _
      rw [put_self, isRead]
      exact session
    have record (r : RecordId) : online.record r = s.record r := by rw [isOnline]; rfl
    rw [exec_eq, if_pos scheduled, taken]
    unfold State.routeDelta
    rw [live]
    refine ⟨fun r named running => ?_, fun idle => ?_⟩
    · rw [named]
      exact congrArg _ (if_pos (by rw [record]; exact running))
    · have unbilled : online.addUnbilled b delta = { online with blc := { online.blc with
          bays := put online.blc.bays b { read with unbilledWh := read.unbilledWh + BitVec.ofNat 32 delta } } } := by
        have entry : online.bay b = read := by rw [isOnline]; exact put_self ..
        unfold State.addUnbilled State.modBay
        rw [entry]
      cases named : (s.bay b).session with
      | none => exact congrArg _ unbilled
      | some r =>
        obtain ⟨inactive, unsuspended⟩ := idle r named
        exact congrArg _ ((if_neg (by rw [record]; simp [inactive, unsuspended])).trans unbilled)

end Sys2Proof.Machine
end

section
/-! PROOFS: losses of a bay and the steps of a sweep start (R1, R2, R6, R14, R87, R94). -/

namespace Sys2Proof.Machine

/-! ## A loss event -/

/-- A withdrawal as one update: WITHDRAWN goes to Port A. -/
theorem withdraw_eq (s : State) (r : RecordId) (cause : WithdrawCause) :
    s.withdraw r cause = { s.notify (.session (.withdrawn r (s.record r).bay cause)) with
      ssm := { s.ssm with records := put s.ssm.records r Record.cleared }
      blc := { s.blc with
        bays := put s.blc.bays (s.record r).bay { s.bay (s.record r).bay with session := none } } } := rfl

section LossEvent

variable {s : State} {b : BayId} {r : RecordId}

theorem lossEvent_of_live (live : (s.bay b).session = some r) (open_bay : (s.bay b).reservedFor = none)
    (reason : SuspensionReason) : s.lossEvent b reason =
      match (s.record r).state with
      | .pending => s.withdraw r reason.cause
      | .active => s.suspend r reason
      | .suspended => s.modRecord r fun g => { g with suspension := some reason }
      | _ => s := by
  unfold State.lossEvent
  rw [open_bay, live]
  dsimp only
  cases (s.record r).state <;> rfl

theorem lossEvent_of_none (idle : (s.bay b).reservedFor ≠ none ∨ (s.bay b).session = none)
    (reason : SuspensionReason) : s.lossEvent b reason = s := by
  unfold State.lossEvent
  cases reserved : (s.bay b).reservedFor with
  | some head => rfl
  | none => rw [idle.resolve_left (not_not.mpr reserved)]

end LossEvent

/-- Settles O39: the event is judged by the state of the bay's live record. -/
theorem lossesMoveTheLiveRecord : Obligations.LossesMoveTheLiveRecord := by
  intro s b reason
  refine ⟨fun r live open_bay own => ⟨fun pending => ?_, fun active => ?_, fun suspended => ?_, fun moving => ?_⟩,
    fun idle => lossEvent_of_none idle reason⟩
  all_goals rw [lossEvent_of_live live open_bay]
  · refine ⟨reason.cause, ?_, ?_, ?_⟩
    · rintro rfl; rfl
    · rintro rfl; rfl
    · rw [pending, withdraw_eq, own]
  · have told := suspend_eq s r reason
    rw [own] at told
    rw [active]
    exact told
  · rw [suspended]
    rfl
  · rw [moving]

/-- A loss event leaves each bay but for its session record id. -/
theorem lossEvent_frame (s : State) (b : BayId) (reason : SuspensionReason) :
    s.lossEvent b reason = { s with
      blc := { s.blc with bays := (s.lossEvent b reason).blc.bays }
      ssm := { s.ssm with records := (s.lossEvent b reason).ssm.records }
      mpt := (s.lossEvent b reason).mpt } ∧
    ∀ c, (s.lossEvent b reason).bay c = { s.bay c with session := ((s.lossEvent b reason).bay c).session } := by
  by_cases idle : (s.bay b).reservedFor ≠ none ∨ (s.bay b).session = none
  · rw [lossEvent_of_none idle]
    exact ⟨rfl, fun _ => rfl⟩
  obtain ⟨open_bay, live⟩ := not_or.mp idle
  obtain ⟨r, live⟩ := Option.ne_none_iff_exists'.mp live
  rw [lossEvent_of_live live (not_not.mp open_bay)]
  split
  · have entry (c : BayId) : (s.withdraw r reason.cause).bay c =
        if c = (s.record r).bay then { s.bay (s.record r).bay with session := none } else s.bay c := put_at ..
    refine ⟨rfl, fun c => ?_⟩
    rw [entry]
    split
    · subst c; rfl
    · rfl
  · exact ⟨rfl, fun _ => rfl⟩
  · exact ⟨rfl, fun _ => rfl⟩
  · exact ⟨rfl, fun _ => rfl⟩

/-! ## Link states laid over a state -/

/-- The part with these link states and miss counts, and this schedule. -/
def State.relinked (k : BayId → LinkState × Nat) (active : Vector Masks 16) (pending : Option (Vector Masks 16))
    (s : State) : State :=
  { s with
    blc := { s.blc with
      bays := Vector.ofFn fun b : BayId => { s.bay b with link := (k b).1, missCount := (k b).2 }
      active := active
      pendingCopy := pending } }

section Relinked

variable (s : State) (k : BayId → LinkState × Nat) (active : Vector Masks 16) (pending : Option (Vector Masks 16))

theorem bay_relinked (b : BayId) :
    (s.relinked k active pending).bay b = { s.bay b with link := (k b).1, missCount := (k b).2 } :=
  Vector.getElem_ofFn ..

theorem eq_relinked : s = s.relinked (fun b => ((s.bay b).link, (s.bay b).missCount)) s.blc.active
    s.blc.pendingCopy := by
  have bays : s.blc.bays = Vector.ofFn fun b : BayId => s.bay b := Vector.ext fun i inside => by
    rw [Vector.getElem_ofFn]; rfl
  show { s with blc := { s.blc with bays := s.blc.bays } } = _
  rw [bays]
  rfl

/-- A change of one bay's link state and miss count. -/
theorem modBay_relinked (b : BayId) (f : Bay → Bay) (l : LinkState) (m : Nat)
    (writes : ∀ e : Bay, e.link = (k b).1 → e.missCount = (k b).2 → f e = { e with link := l, missCount := m }) :
    (s.relinked k active pending).modBay b f = s.relinked (Function.update k b (l, m)) active pending := by
  have bays : put (s.relinked k active pending).blc.bays b (f ((s.relinked k active pending).bay b)) =
      (s.relinked (Function.update k b (l, m)) active pending).blc.bays := Vector.ext fun i inside => by
    let c : BayId := ⟨i, inside⟩
    show (put _ b _)[c.val] = (s.relinked (Function.update k b (l, m)) active pending).bay c
    rw [put_at, bay_relinked, bay_relinked]
    by_cases same : c = b
    · rw [if_pos same, same, Function.update_self, writes _ rfl rfl]
    · rw [if_neg same, Function.update_of_ne same]
      exact bay_relinked s k active pending c
  unfold State.modBay
  rw [bays]
  rfl

theorem setSession_relinked (b : BayId) (r : Option RecordId) :
    (s.relinked k active pending).setSession b r = (s.setSession b r).relinked k active pending := by
  have bays : ((s.relinked k active pending).setSession b r).blc.bays =
      ((s.setSession b r).relinked k active pending).blc.bays := Vector.ext fun i inside => by
    let c : BayId := ⟨i, inside⟩
    show ((s.relinked k active pending).modBay b fun e => { e with session := r }).bay c =
      ((s.modBay b fun e => { e with session := r }).relinked k active pending).bay c
    rw [bay_modBay, bay_relinked, bay_relinked, bay_relinked, bay_modBay]
    by_cases same : c = b
    · subst same; simp
    · simp [same]
  show { s.relinked k active pending with blc := { (s.relinked k active pending).blc with
    bays := ((s.relinked k active pending).setSession b r).blc.bays } } = _
  rw [bays]
  rfl

theorem notify_relinked (n : Notice) :
    (s.relinked k active pending).notify n = (s.notify n).relinked k active pending := by
  have told := notify_mpt_congr (s := s) (t := s.relinked k active pending) rfl rfl rfl n
  rw [notify_frame, told, notify_frame s n]
  rfl

theorem modRecord_relinked (r : RecordId) (f : Record → Record) :
    (s.relinked k active pending).modRecord r f = (s.modRecord r f).relinked k active pending := rfl

theorem suspend_relinked (r : RecordId) (reason : SuspensionReason) :
    (s.relinked k active pending).suspend r reason = (s.suspend r reason).relinked k active pending := by
  unfold State.suspend
  rw [modRecord_relinked, notify_relinked]
  rfl

theorem withdraw_relinked (r : RecordId) (cause : WithdrawCause) :
    (s.relinked k active pending).withdraw r cause = (s.withdraw r cause).relinked k active pending := by
  unfold State.withdraw State.freeRecordOf
  rw [modRecord_relinked]
  dsimp only
  rw [setSession_relinked, notify_relinked]
  rfl

/-- A loss event neither reads nor writes link states, miss counts and the schedule. -/
theorem lossEvent_relinked (b : BayId) (reason : SuspensionReason) :
    (s.relinked k active pending).lossEvent b reason = (s.lossEvent b reason).relinked k active pending := by
  have session : ((s.relinked k active pending).bay b).session = (s.bay b).session := by rw [bay_relinked]
  have reserved : ((s.relinked k active pending).bay b).reservedFor = (s.bay b).reservedFor := by rw [bay_relinked]
  have record (r : RecordId) : (s.relinked k active pending).record r = s.record r := rfl
  by_cases idle : (s.bay b).reservedFor ≠ none ∨ (s.bay b).session = none
  · rw [lossEvent_of_none idle, lossEvent_of_none (by rwa [session, reserved])]
  obtain ⟨open_bay, live⟩ := not_or.mp idle
  obtain ⟨r, live⟩ := Option.ne_none_iff_exists'.mp live
  rw [lossEvent_of_live live (not_not.mp open_bay),
    lossEvent_of_live (session.trans live) (reserved.trans (not_not.mp open_bay)), record]
  split
  · exact withdraw_relinked ..
  · exact suspend_relinked ..
  · exact modRecord_relinked ..
  · rfl

end Relinked

/-- Steps over a run of bays, each of which may hand one loss to the session manager and write its own link state: the
losses in order, under the link states that the steps leave. -/
theorem foldl_relinked {f : BayId → State → State} {reason : SuspensionReason}
    {tells : BayId → LinkState × Nat → Bool} {next : BayId → LinkState × Nat → LinkState × Nat} {inv : State → Prop}
    {active : Vector Masks 16} {pending : Option (Vector Masks 16)}
    (keeps : ∀ u b, inv u → inv (u.lossEvent b reason))
    (step : ∀ u k b, inv u → f b (u.relinked k active pending) =
      (if tells b (k b) then u.lossEvent b reason else u).relinked (Function.update k b (next b (k b))) active pending)
    {l : List BayId} (once : l.Nodup) : ∀ (u : State) (k : BayId → LinkState × Nat), inv u →
      l.foldl (fun t b => f b t) (u.relinked k active pending) =
        ((l.filter fun b => tells b (k b)).foldl (fun t b => t.lossEvent b reason) u).relinked
          (fun c => if c ∈ l then next c (k c) else k c) active pending := by
  induction l with
  | nil => intros; simp
  | cons b l ih =>
    intro u k start
    obtain ⟨out, once⟩ := List.nodup_cons.mp once
    have other (c : BayId) (mem : c ∈ l) : Function.update k b (next b (k b)) c = k c :=
      Function.update_of_ne (by rintro rfl; exact out mem) ..
    have told : (l.filter fun c => tells c (Function.update k b (next b (k b)) c)) =
        l.filter fun c => tells c (k c) := List.filter_congr fun c mem => by rw [other c mem]
    have links : (fun c => if c ∈ l then next c (Function.update k b (next b (k b)) c)
        else Function.update k b (next b (k b)) c) = fun c => if c ∈ b :: l then next c (k c) else k c := by
      funext c
      by_cases mem : c ∈ l
      · rw [if_pos mem, if_pos (List.mem_cons_of_mem _ mem), other c mem]
      · rw [if_neg mem]
        by_cases same : c = b
        · subst same
          rw [Function.update_self, if_pos List.mem_cons_self]
        · rw [Function.update_of_ne same, if_neg (by simp [same, mem])]
    rw [List.foldl_cons, step u k b start, List.filter_cons]
    by_cases tell : tells b (k b) = true
    · rw [if_pos tell, if_pos tell, ih once _ _ (keeps u b start), told, links, List.foldl_cons]
    · rw [if_neg tell, if_neg tell, ih once _ _ start, told, links]

/-! ## The steps of a sweep start -/

/-- What the close of a sweep writes for one bay (R14). -/
def closedLink (missed : Bool) (threshold : Nat) (x : LinkState × Nat) : LinkState × Nat :=
  if missed then
    (if threshold ≤ min 255 (x.2 + 1) ∧ (x.1 = .online ∨ x.1 = .scheduledWait) then .silent else x.1, min 255 (x.2 + 1))
  else x

/-- Whether the close of a sweep tells the session manager of one bay (R14). -/
def closedTells (missed : Bool) (threshold : Nat) (x : LinkState × Nat) : Bool :=
  missed && decide (x.1 = .online) && decide (threshold ≤ min 255 (x.2 + 1))

theorem closeSweepBay_relinked (s : State) (k : BayId → LinkState × Nat) (active : Vector Masks 16)
    (pending : Option (Vector Masks 16)) (b : BayId) (missed : Bool)
    (isMissed : missed = (active[b.val].scheduled && !s.blc.heard[b.val])) :
    (s.relinked k active pending).closeSweepBay b =
      (if closedTells missed s.settings.silentThreshold (k b) then s.lossEvent b .silent else s).relinked
        (Function.update k b (closedLink missed s.settings.silentThreshold (k b))) active pending := by
  have scheduled : (s.relinked k active pending).scheduled b = active[b.val].scheduled := rfl
  have heard : (s.relinked k active pending).blc.heard = s.blc.heard := rfl
  have settings : (s.relinked k active pending).settings = s.settings := rfl
  have entry := bay_relinked s k active pending b
  unfold State.closeSweepBay closedTells closedLink
  cases miss : missed with
  | false =>
    have passes : (!active[b.val].scheduled) = true ∨ s.blc.heard[b.val] = true := by
      rw [miss] at isMissed
      cases on : active[b.val].scheduled <;> simp_all
    rw [scheduled, heard, if_pos passes]
    simp
  | true =>
    have counts : ¬ ((!active[b.val].scheduled) = true ∨ s.blc.heard[b.val] = true) := by
      rw [miss] at isMissed
      cases on : active[b.val].scheduled <;> simp_all
    have count (m : Nat) : (s.relinked k active pending).modBay b (fun e => { e with missCount := m }) =
        s.relinked (Function.update k b ((k b).1, m)) active pending :=
      modBay_relinked s k active pending b _ _ _ fun e link _ => by rw [← link]
    have silence (m : Nat) : (s.relinked (Function.update k b ((k b).1, m)) active pending).modBay b
        (fun e => { e with link := .silent }) = s.relinked (Function.update k b (.silent, m)) active pending := by
      rw [modBay_relinked s _ active pending b _ .silent m fun e _ miss => by
        rw [← show e.missCount = m by rw [miss, Function.update_self]], Function.update_idem]
    rw [scheduled, heard, if_neg counts, settings, entry]
    dsimp only
    rw [count, silence]
    by_cases below : min 255 ((k b).2 + 1) < s.settings.silentThreshold
    · simp [below, Nat.not_le.mpr below]
    · rw [if_neg below]
      have reached := Nat.not_lt.mp below
      cases link : (k b).1 <;> simp [reached, lossEvent_relinked]

/-- What an applied commit writes for one bay (R6). -/
def appliedLink (before after : Bool) (x : LinkState × Nat) : LinkState × Nat :=
  match before, after with
  | true, false => (.absent, 0)
  | false, true => (.scheduledWait, 0)
  | true, true => x
  | false, false => x

theorem applyToBay_relinked (s : State) (k : BayId → LinkState × Nat) (active old new : Vector Masks 16)
    (pending : Option (Vector Masks 16)) (b : BayId) :
    (s.relinked k active pending).applyToBay old new b =
      (if old[b.val].scheduled && !new[b.val].scheduled then s.lossEvent b .unscheduled else s).relinked
        (Function.update k b (appliedLink old[b.val].scheduled new[b.val].scheduled (k b))) active pending := by
  have writes (l : LinkState) : (s.relinked k active pending).modBay b (fun e => { e with link := l, missCount := 0 }) =
      s.relinked (Function.update k b (l, 0)) active pending :=
    modBay_relinked s k active pending b _ _ _ fun _ _ _ => rfl
  unfold State.applyToBay appliedLink
  cases old[b.val].scheduled <;> cases new[b.val].scheduled <;> simp [writes, lossEvent_relinked]

/-! ## What losses leave -/

/-- A part that losses alone lie between: its records, its bays' session record ids and its ports apart, it stands. -/
def State.LossesOnly (s t : State) : Prop :=
  t = { s with
    blc := { s.blc with bays := t.blc.bays }
    ssm := { s.ssm with records := t.ssm.records }
    mpt := t.mpt } ∧
  ∀ c, t.bay c = { s.bay c with session := (t.bay c).session }

theorem lossesOnly_trans {s t u : State} (first : s.LossesOnly t) (second : t.LossesOnly u) : s.LossesOnly u := by
  obtain ⟨frame, bays⟩ := first
  obtain ⟨frame', bays'⟩ := second
  refine ⟨?_, fun c => ?_⟩
  · rw [frame', frame]
  · rw [bays' c, bays c]

theorem lossesOnly_foldl (l : List (BayId × SuspensionReason)) (s : State) :
    s.LossesOnly (l.foldl (fun u x => u.lossEvent x.1 x.2) s) := by
  induction l generalizing s with
  | nil => exact ⟨rfl, fun _ => rfl⟩
  | cons x l ih => exact lossesOnly_trans (lossEvent_frame s x.1 x.2) (ih _)

/-! ## A sweep start -/

/-- Whether a bay was scheduled in the sweep that ends and not heard in it (R14). -/
def State.missed (s : State) (b : BayId) : Bool := s.blc.sweepBegun && s.scheduled b && !s.blc.heard[b.val]

/-- The link state and miss count of a bay. -/
def State.linkOf (s : State) (b : BayId) : LinkState × Nat := ((s.bay b).link, (s.bay b).missCount)

theorem closeSweep_eq (s : State) : s.closeSweep =
    ((allBays.filter fun b => closedTells (s.missed b) s.settings.silentThreshold (s.linkOf b)).foldl
      (fun t b => t.lossEvent b .silent) s).relinked
        (fun b => closedLink (s.missed b) s.settings.silentThreshold (s.linkOf b)) s.blc.active s.blc.pendingCopy := by
  unfold State.closeSweep
  cases begun : s.blc.sweepBegun with
  | false =>
    have passes (b : BayId) : s.missed b = false := by simp [State.missed, begun]
    simp only [passes, closedTells, closedLink, Bool.false_and, List.filter_false, List.foldl_nil, Bool.false_eq_true,
      if_false]
    exact eq_relinked s
  | true =>
    have misses (b : BayId) : s.missed b = (s.blc.active[b.val].scheduled && !s.blc.heard[b.val]) := by
      unfold State.missed
      rw [begun]
      rfl
    have folded := foldl_relinked (f := State.closeSweepBay) (reason := .silent)
      (tells := fun b => closedTells (s.missed b) s.settings.silentThreshold)
      (next := fun b => closedLink (s.missed b) s.settings.silentThreshold)
      (inv := fun u => u.blc.heard = s.blc.heard ∧ u.settings = s.settings) (active := s.blc.active)
      (pending := s.blc.pendingCopy)
      (fun u b ⟨heard, settings⟩ => by
        obtain ⟨frame, -⟩ := lossEvent_frame u b .silent
        rw [frame]
        exact ⟨heard, settings⟩)
      (fun u k b ⟨heard, settings⟩ => by
        rw [closeSweepBay_relinked u k _ _ b (s.missed b) (by rw [misses, heard]), settings])
      allBays_nodup s s.linkOf ⟨rfl, rfl⟩
    simp only [mem_allBays, if_true] at folded
    rw [if_pos rfl, ← folded]
    exact congrArg (fun u => allBays.foldl (fun t b => t.closeSweepBay b) u) (eq_relinked s)

theorem applyCommit_relinked (s : State) (k : BayId → LinkState × Nat) (active : Vector Masks 16)
    (pending : Option (Vector Masks 16)) (new : Vector Masks 16) (isNew : new = pending.getD active) :
    (s.relinked k active pending).applyCommit =
      ((allBays.filter fun b => active[b.val].scheduled && !new[b.val].scheduled).foldl
        (fun t b => t.lossEvent b .unscheduled) s).relinked
          (fun b => appliedLink active[b.val].scheduled new[b.val].scheduled (k b)) new none := by
  unfold State.applyCommit
  cases pending with
  | none =>
    have same : new = active := isNew
    subst same
    have kept (b : BayId) : appliedLink new[b.val].scheduled new[b.val].scheduled (k b) = k b := by
      cases new[b.val].scheduled <;> rfl
    simp only [Bool.and_not_self, List.filter_false, List.foldl_nil, kept]
    rfl
  | some copy =>
    have same : new = copy := isNew
    subst same
    have folded := foldl_relinked (f := fun b t => t.applyToBay active new b) (reason := .unscheduled)
      (tells := fun b _ => active[b.val].scheduled && !new[b.val].scheduled)
      (next := fun b => appliedLink active[b.val].scheduled new[b.val].scheduled) (inv := fun _ => True)
      (active := new) (pending := none) (fun _ _ _ => trivial)
      (fun u k b _ => applyToBay_relinked u k new active new none b) allBays_nodup s k trivial
    simp only [mem_allBays, if_true] at folded
    exact folded

/-- A sweep start as the losses it hands on and the link states it leaves. -/
theorem sweepStart_eq (s : State) (new : Vector Masks 16) (isNew : new = s.blc.pendingCopy.getD s.blc.active) :
    s.sweepStart =
      (((((allBays.filter fun b => closedTells (s.missed b) s.settings.silentThreshold (s.linkOf b)).map
          (·, SuspensionReason.silent)) ++
        ((allBays.filter fun b => s.scheduled b && !new[b.val].scheduled).map
          (·, SuspensionReason.unscheduled))).foldl (fun u x => u.lossEvent x.1 x.2) s).relinked
        (fun b => appliedLink (s.scheduled b) new[b.val].scheduled
          (closedLink (s.missed b) s.settings.silentThreshold (s.linkOf b))) new none).beginSweep := by
  unfold State.sweepStart
  rw [closeSweep_eq, applyCommit_relinked _ _ _ _ new isNew, List.foldl_append, List.foldl_map, List.foldl_map]
  rfl

theorem exec_sweepStart (s : State) : exec .sweepStart s = .next s.sweepStart := rfl

/-- Settles O33: the link states that the steps write lie over what the losses leave. -/
theorem sweepStartSteps : Obligations.SweepStartSteps := by
  intro s told new missed count silent gone isNew isMissed isCount isSilent isGone isTold
  have miss (b : BayId) : s.missed b = missed b := (isMissed b).symm
  have counted (b : BayId) : (closedLink (missed b) s.settings.silentThreshold (s.linkOf b)).2 = count b := by
    rw [isCount]
    unfold closedLink State.linkOf
    split <;> rfl
  have silents : (allBays.filter fun b => closedTells (s.missed b) s.settings.silentThreshold (s.linkOf b)) =
      silent := by
    rw [isSilent]
    refine List.filter_congr fun b _ => ?_
    rw [miss, isCount]
    unfold closedTells State.linkOf
    cases missed b <;> simp
  have gones : (allBays.filter fun b => s.scheduled b && !new[b.val].scheduled) = gone := by
    rw [isGone]
    refine List.filter_congr fun b _ => ?_
    cases s.scheduled b <;> cases new[b.val].scheduled <;> rfl
  have start := sweepStart_eq s new isNew
  rw [silents, gones, ← isTold] at start
  obtain ⟨frame, bays⟩ : s.LossesOnly told := isTold ▸ lossesOnly_foldl _ s
  let k : BayId → LinkState × Nat := fun b => appliedLink (s.scheduled b) new[b.val].scheduled
    (closedLink (s.missed b) s.settings.silentThreshold (s.linkOf b))
  have bay (b : BayId) : s.sweepStart.bay b = { told.bay b with link := (k b).1, missCount := (k b).2 } := by
    rw [start]
    exact bay_relinked told k new none b
  obtain ⟨B, R, M, whole⟩ : ∃ B R M, told =
      { s with blc := { s.blc with bays := B }, ssm := { s.ssm with records := R }, mpt := M } := ⟨_, _, _, frame⟩
  clear frame isTold
  subst whole
  have frame : s.sweepStart = { s with
      blc := { s.blc with
        bays := s.sweepStart.blc.bays
        active := new
        pendingCopy := none
        grantSource := s.ale.current
        sweepNumber := if s.blc.sweepBegun then s.blc.sweepNumber + 1 else s.blc.sweepNumber
        sweepBegun := true
        sweepPeriodTaken := s.settings.sweepPeriod
        heard := Vector.replicate 16 false }
      ssm := { s.ssm with records := R }
      mpt := M } := by
    rw [start]
    rfl
  refine ⟨s.sweepStart, exec_sweepStart s, ?_, ?_, ?_, ?_, ?_, ?_, ?_, ?_, ?_, ?_, fun b =>
    ⟨?_, fun was is => ?_, fun was is => ?_, fun was is => ?_, fun was is => ?_⟩⟩
  iterate 10 · rw [frame]
  · rw [bay, bays b]
  all_goals
    have link : (s.sweepStart.bay b).link = (k b).1 := by rw [bay]
    have number : (s.sweepStart.bay b).missCount = (k b).2 := by rw [bay]
    rw [link, number]
    unfold k
    rw [was, is, miss]
  · refine ⟨counted b, ?_⟩
    unfold appliedLink closedLink State.linkOf
    rw [isCount]
    cases missed b <;> simp
  · exact ⟨rfl, rfl⟩
  · exact ⟨rfl, rfl⟩
  · have passes : missed b = false := by rw [isMissed, was]; simp
    rw [passes]
    exact ⟨rfl, rfl⟩

end Sys2Proof.Machine
end

section
/-! PROOFS: what a report and a meter reading do to sessions (R79, R81, R82, R87–R95, R138, R144). -/

namespace Sys2Proof.Machine

/-! ## A bay with no live record -/

section Idle

variable {s : State} {b : BayId}

theorem statusEvent_of_idle (idle : (s.bay b).session = none) (unreserved : (s.bay b).reservedFor = none)
    (report previous : Report) (before : Option SiteTime) :
    s.statusEvent b report previous before = (s.requestReport b report).clearMarks b report := by
  have situation : s.situationStep b report = s.requestReport b report := by
    unfold State.situationStep
    rw [unreserved, idle]
  unfold State.statusEvent
  rw [idleStep_of_none idle, situation]

/-- A report raises no request unless it asks, gives a token, and the bay's ended-latch and the clock allow it (R81). -/
theorem requestReport_of_not {report : Report} (no : ¬ ((report.vehicle = .plugged ∨ report.vehicle = .demanding) ∧
    report.token ≠ none ∧ s.ssm.endedLatch[b.val] = false ∧ s.now ≠ none)) : s.requestReport b report = s := by
  unfold State.requestReport
  cases token : report.token with
  | none => rfl
  | some t =>
    refine if_neg fun ⟨asks, latch, set⟩ => no ⟨(asks_iff _).mp asks, by simp [token], ?_, ?_⟩
    · simpa using latch
    · simpa [Option.isSome_iff_ne_none] using set

theorem requestReport_of_asks {report : Report} {t : Token}
    (asks : report.vehicle = .plugged ∨ report.vehicle = .demanding) (token : report.token = some t)
    (latch : s.ssm.endedLatch[b.val] = false) (set : s.now ≠ none) : s.requestReport b report =
      match s.freeRecord with
      | some r => s.raiseRequest r b t
      | none => s.sayNoContext b := by
  have raises : report.vehicle.asks = true ∧ (!s.ssm.endedLatch[b.val]) = true ∧ s.now.isSome = true :=
    ⟨(asks_iff _).mpr asks, by rw [latch]; rfl, Option.isSome_iff_ne_none.mpr set⟩
  unfold State.requestReport
  rw [token]
  exact if_pos raises

/-- A request raised as one update: AUTH_REQUEST goes to the port it is routed to. -/
theorem raiseRequest_eq (s : State) (r : RecordId) (b : BayId) (t : Token) : s.raiseRequest r b t =
    { s.notify (.authRequest b (r.val + 1) (some t) (s.deadline (1000 * s.settings.authorisationTimeout))) with
      ssm := { s.ssm with allocPointer := r + 1, records := put s.ssm.records r (s.pendingRecord b t) }
      blc := { s.blc with bays := put s.blc.bays b { s.bay b with session := some r } } } := by
  let n : Notice := .authRequest b (r.val + 1) (some t) (s.deadline (1000 * s.settings.authorisationTimeout))
  let taken : State := (s.takeRecord r (s.pendingRecord b t)).setSession b (some r)
  have told : (taken.notify n).mpt = (s.notify n).mpt := notify_mpt_congr (by rfl) (by rfl) (by rfl) n
  show taken.notify n = _
  rw [notify_frame, told, notify_frame s]
  rfl

end Idle

/-- Settles O37: a request needs all its conditions, and then a FREE record. -/
theorem reportsRaiseRequests : Obligations.ReportsRaiseRequests := by
  intro s b report previous before asks idle unreserved isAsks
  rw [statusEvent_of_idle idle unreserved]
  have raised (ha : asks) : ∃ t, report.token = some t ∧ (s.requestReport b report).clearMarks b report =
      match s.freeRecord with
      | some r => s.raiseRequest r b t
      | none => s.sayNoContext b := by
    obtain ⟨vehicle, token, latch, set⟩ := isAsks.mp ha
    obtain ⟨t, token⟩ := Option.ne_none_iff_exists'.mp token
    exact ⟨t, token, by rw [clearMarks_of_plugged (ne_unplugged_of_asks vehicle),
      requestReport_of_asks vehicle token latch set]⟩
  refine ⟨fun unplugged => ?_, fun no plugged => ?_, fun r deadline ha free isDeadline => ?_, fun ha none => ?_⟩
  · rw [requestReport_of_not fun ⟨vehicle, _⟩ => ne_unplugged_of_asks vehicle unplugged,
      clearMarks_of_unplugged unplugged]
  · rw [clearMarks_of_plugged plugged, requestReport_of_not (isAsks.not.mp no)]
  · obtain ⟨t, token, eq⟩ := raised ha
    rw [eq, free, isDeadline, token]
    exact raiseRequest_eq s r b t
  · obtain ⟨t, token, eq⟩ := raised ha
    rw [eq, none]
    rfl

/-! ## A bay's live record -/

section Live

variable {s : State} {b : BayId} {r : RecordId} {report previous : Report} {before : Option SiteTime}

theorem idleStep_of_not_active (live : (s.bay b).session = some r) (other : (s.record r).state ≠ .active) :
    s.idleStep b report previous before = s := by
  unfold State.idleStep
  rw [live]
  exact if_neg other

theorem idleStep_of_nothing (live : (s.bay b).session = some r)
    (nothing : previous.vehicle ≠ .plugged ∨ (s.record r).metered = 0 ∨ s.now = none ∨ before = none) :
    s.idleStep b report previous before = s := by
  have adds : s.idleToAdd (s.record r) previous before = none := by
    unfold State.idleToAdd
    obtain moved | unmetered | unset | first := nothing
    · exact if_neg fun both => moved both.1
    · exact if_neg fun both => by omega
    · rw [unset]
      cases before <;> simp
    · rw [first]
      simp
  unfold State.idleStep
  rw [live]
  dsimp only
  rw [adds]
  exact ite_self _

theorem idleStep_of_idle {now then_ : SiteTime} (live : (s.bay b).session = some r)
    (active : (s.record r).state = .active) (plugged : previous.vehicle = .plugged)
    (metered : 1 ≤ (s.record r).metered) (set : s.now = some now) :
    s.idleStep b report previous (some then_) =
      (s.modRecord r fun g => { g with idleMs := min 4294967295 (g.idleMs + (now.minus then_).toNat) }).checkCaps r
        report.vehicle.isPlugged := by
  have adds : s.idleToAdd (s.record r) previous (some then_) = some (now.minus then_).toNat := by
    unfold State.idleToAdd
    rw [if_pos ⟨plugged, metered⟩, set]
  unfold State.idleStep
  rw [live]
  dsimp only
  rw [if_pos active, adds]

theorem situationStep_of_live (live : (s.bay b).session = some r) (unreserved : (s.bay b).reservedFor = none) :
    s.situationStep b report =
      match (s.record r).state with
      | .pending => s.pendingReport r report
      | .active => s.activeReport r report
      | .suspended => s.suspendedReport r report
      | .transferring => s
      | _ => s.requestReport b report := by
  unfold State.situationStep
  rw [unreserved, live]
  dsimp only
  cases (s.record r).state <;> rfl

/-- A close leaves its bay with no live record and no reservation. -/
theorem idle_of_closeChain (own : (s.record r).bay = b) (unreserved : (s.bay b).reservedFor = none) (reason : EndReason)
    (plugged : Bool) : ((s.closeChain r reason plugged).bay b).session = none ∧
      ((s.closeChain r reason plugged).bay b).reservedFor = none := by
  unfold State.closeChain
  rw [bay_endChain, bay_headEnded]
  refine ⟨if_pos own.symm, ?_⟩
  dsimp only
  split
  · rfl
  · exact unreserved

/-- A report that has brought the chain to a cap does nothing more: the ended-latch bars a request (R91, R144). -/
theorem situationStep_of_closed (own : (s.record r).bay = b) (unreserved : (s.bay b).reservedFor = none) :
    (s.closeChain r .capReached report.vehicle.isPlugged).situationStep b report =
      s.closeChain r .capReached report.vehicle.isPlugged := by
  obtain ⟨idle, open_bay⟩ := idle_of_closeChain own unreserved .capReached report.vehicle.isPlugged
  have situation : (s.closeChain r .capReached report.vehicle.isPlugged).situationStep b report =
      (s.closeChain r .capReached report.vehicle.isPlugged).requestReport b report := by
    unfold State.situationStep
    rw [open_bay, idle]
  rw [situation]
  refine requestReport_of_not fun ⟨vehicle, _, latch, _⟩ => ?_
  have plugged : report.vehicle.isPlugged = true := by
    rw [isPlugged_eq]
    exact bne_iff_ne.mpr (ne_unplugged_of_asks vehicle)
  have latched : (s.closeChain r .capReached report.vehicle.isPlugged).ssm.endedLatch[b.val] = true := by
    unfold State.closeChain
    rw [endChain_frame, plugged, own]
    exact put_self ..
  exact absurd (latched.symm.trans latch) (by decide)

end Live

/-- A return to ACTIVE as one update: RESUMED goes to Port A. -/
theorem resume_eq (s : State) (r : RecordId) :
    s.resume r = { s.notify (.session (.resumed r (s.record r).bay)) with
      ssm := { s.ssm with
        records := put s.ssm.records r
          { s.record r with state := .active, resumeDeadline := none, suspension := none } } } := rfl

/-- Settles O38: idle time and the caps come first, then the report by the state of the record, then the marks. -/
theorem reportsMoveTheLiveRecord : Obligations.ReportsMoveTheLiveRecord := by
  intro s b r report previous before idle live unreserved own
  have cleared (plugged : report.vehicle = .plugged ∨ report.vehicle = .demanding) (t : State) :
      t.clearMarks b report = t := clearMarks_of_plugged (ne_unplugged_of_asks plugged) b t
  have faulted (fault : report.vehicle = .fault) (t : State) : t.clearMarks b report = t :=
    clearMarks_of_plugged (by rw [fault]; decide) b t
  have situation := situationStep_of_live (report := report) live unreserved
  refine ⟨fun pending => ?_, fun active nothing => ?_, fun now then_ active plugged metered set isBefore isIdle => ?_,
    fun suspended => ?_, fun moving => ?_⟩
  · unfold State.statusEvent
    rw [idleStep_of_not_active live (by rw [pending]; decide), situation, pending]
    dsimp only
    refine ⟨fun unplugged => ?_, fun fault => ?_, fun asks => ?_⟩
    · rw [clearMarks_of_unplugged unplugged, State.pendingReport, unplugged]
    · rw [faulted fault, State.pendingReport, fault]
    · rw [cleared asks, State.pendingReport]
      obtain asks | asks := asks <;> rw [asks]
  · unfold State.statusEvent
    rw [idleStep_of_nothing live nothing, situation, active]
    dsimp only
    refine ⟨fun unplugged => ?_, fun fault => ?_, fun asks => ?_⟩
    · rw [clearMarks_of_unplugged unplugged, State.activeReport, unplugged]
    · rw [faulted fault, State.activeReport, fault]
    · rw [cleared asks, State.activeReport]
      obtain asks | asks := asks <;> rw [asks]
  · have stepped : s.idleStep b report previous before = idle.checkCaps r report.vehicle.isPlugged := by
      rw [isBefore, idleStep_of_idle live active plugged metered set, isIdle]
      rfl
    have still_live : (idle.bay b).session = some r := by rw [isIdle]; exact live
    have still_open : (idle.bay b).reservedFor = none := by rw [isIdle]; exact unreserved
    have record : idle.record r = { s.record r with
        idleMs := min 4294967295 ((s.record r).idleMs + (now.minus then_).toNat) } := by
      rw [isIdle]
      exact put_self ..
    have still_own : (idle.record r).bay = b := by rw [record]; exact own
    have still_active : (idle.record r).state = .active := by rw [record]; exact active
    unfold State.statusEvent
    rw [stepped]
    refine ⟨fun below => ?_, fun atCap => ?_⟩
    · rw [State.checkCaps_of_not_atCap below, situationStep_of_live still_live still_open, still_active]
      dsimp only
      refine ⟨fun unplugged => ?_, fun fault => ?_, fun asks => ?_⟩
      · rw [clearMarks_of_unplugged unplugged, State.activeReport, unplugged]
      · rw [faulted fault, State.activeReport, fault]
      · rw [cleared asks, State.activeReport]
        obtain asks | asks := asks <;> rw [asks]
    · rw [State.checkCaps_of_atCap atCap, situationStep_of_closed still_own still_open]
      refine ⟨fun unplugged => ?_, fun plugged => ?_⟩
      · rw [clearMarks_of_unplugged unplugged, unplugged]
        rfl
      · rw [clearMarks_of_plugged plugged, isPlugged_eq, bne_iff_ne.mpr plugged]
  · unfold State.statusEvent
    rw [idleStep_of_not_active live (by rw [suspended]; decide), situation, suspended]
    dsimp only
    refine ⟨fun fault => ?_, fun unplugged reason => ?_, fun unplugged reason => ?_, fun asks => ?_⟩
    · rw [faulted fault, State.suspendedReport, fault]
    · rw [clearMarks_of_unplugged unplugged, State.suspendedReport, unplugged, reason]
      rfl
    · rw [clearMarks_of_unplugged unplugged, State.suspendedReport, unplugged]
      obtain reason | reason := reason <;> rw [reason] <;> rfl
    · have taken : s.suspendedReport r report =
          if report.token = (s.record r).token then s.resume r else s.closeChain r .lost true := by
        rw [State.suspendedReport]
        obtain asks | asks := asks <;> rw [asks]
      rw [cleared asks, taken]
      refine ⟨fun same => ?_, fun other => if_neg other⟩
      have told := resume_eq s r
      rw [own] at told
      rw [if_pos same]
      exact told
  · unfold State.statusEvent
    rw [idleStep_of_not_active live (by rw [moving]; decide), situation, moving]
    exact ⟨fun unplugged => clearMarks_of_unplugged unplugged .., fun plugged => clearMarks_of_plugged plugged ..⟩

/-! ## A meter reading -/

theorem addDelta_of_mem {e : Nat} {x : Shares} {k : Triple} {now : Option SiteTime} {before after : List Segment}
    {g : Segment} (none : ∀ h ∈ before, h.triple ≠ k) (key : g.triple = k) :
    addDelta e x k now (before ++ g :: after) = before ++ g.add e x :: after := by
  induction before with
  | nil => exact if_pos key
  | cons h before ih =>
    rw [List.cons_append, addDelta, if_neg (none h List.mem_cons_self),
      ih fun q mem => none q (List.mem_cons_of_mem _ mem)]
    rfl

theorem addDelta_of_none {e : Nat} {x : Shares} {k : Triple} {now : Option SiteTime} {l : List Segment}
    (none : ∀ h ∈ l, h.triple ≠ k) : addDelta e x k now l = l ++ [Segment.opened e x k now] := by
  induction l with
  | nil => rfl
  | cons h l ih =>
    rw [addDelta, if_neg (none h List.mem_cons_self), ih fun q mem => none q (List.mem_cons_of_mem _ mem)]
    rfl

theorem takes_iff (e : Nat) (k : Triple) (g : Record) : g.takes e k = true ↔
    ((∃ q ∈ g.segments, q.triple = k) ∨ g.segments.length < 8) ∧ g.metered + e < 2 ^ 32 := by
  unfold Record.takes
  simp only [Bool.and_eq_true, Bool.or_eq_true, List.any_eq_true, decide_eq_true_eq]
  exact and_congr_right' (by omega)

theorem tripleFor_eq {s : State} {r : RecordId} {pg : PageId} {now : SiteTime} (page : (s.record r).page = some pg)
    (set : s.now = some now) : s.tripleFor r = (s.page pg).slots[now.tariffSlot.val] := by
  unfold State.tripleFor State.pinnedPage
  rw [page, set]
  rfl

/-- Settles O41: the counter moves, and the delta goes to the segment of its triple where the record takes it. -/
theorem meterAccountsTheDelta : Obligations.MeterAccountsTheDelta := by
  intro s r e counter pg now x k accounted segments page set isShares isTriple isAccounted
  let read : State := { s with
    ssm := { s.ssm with records := put s.ssm.records r { s.record r with meterLast := some counter } } }
  have reads : (s.modRecord r fun g => { g with meterLast := some counter }) = read := rfl
  have record : read.record r = { s.record r with meterLast := some counter } := put_self ..
  have triple : read.tripleFor r = k := by
    rw [tripleFor_eq (s := read) (pg := pg) (now := now) (by rw [record]; exact page) set]
    exact (isTriple now.tariffSlot rfl).symm
  have shares : read.sharesFor (read.record r).cls = x := by
    rw [record, isShares]
    unfold State.sharesFor
    show (match s.ale.current with | none => _ | some g => _) = _
    cases s.ale.current with
    | none => rfl
    | some g => exact if_congr (Fin.ext_iff (b := 2)).symm rfl rfl
  have event : s.meterEvent r e counter = if e = 0 then read
      else if (read.record r).takes e (read.tripleFor r) then read.accountAndCheck r e
      else read.ninthTriple r e counter := rfl
  have accounts (isSegments : segments = addDelta e x k (some now) (s.record r).segments) :
      read.account r e = accounted := by
    unfold State.account
    dsimp only
    rw [shares, triple, isAccounted, isSegments, show read.now = some now from set]
    unfold State.modRecord
    rw [record]
    show State.mk .. = _
    rw [show read.ssm.records = put s.ssm.records r { s.record r with meterLast := some counter } from rfl, put_put]
  rw [event, triple]
  refine ⟨fun zero isSegments => ?_, fun some_delta fits cases => ?_, fun some_delta full => ?_⟩
  · rw [if_pos zero, isAccounted, zero, isSegments]
    rfl
  · have isSegments : segments = addDelta e x k (some now) (s.record r).segments := by
      obtain ⟨before, after, g, split, key, fresh, written⟩ | ⟨fresh, -, written⟩ := cases
      · rw [split, addDelta_of_mem fresh key, written]
        rfl
      · rw [addDelta_of_none fresh, written]
        rfl
    have takes : (read.record r).takes e k = true := by
      rw [takes_iff, record]
      refine ⟨?_, fits⟩
      obtain ⟨before, after, g, split, key, -⟩ | ⟨-, room, -⟩ := cases
      · exact .inl ⟨g, by rw [split]; simp, key⟩
      · exact .inr room
    have bay : (read.record r).bay = (s.record r).bay := by rw [record]
    rw [if_neg (by omega), if_pos takes]
    unfold State.accountAndCheck
    rw [accounts isSegments, bay]
    refine ⟨fun below => State.checkCaps_of_not_atCap below _, fun atCap => ?_⟩
    dsimp only
    rw [State.checkCaps_of_atCap atCap, isAccounted]
    rfl
  · have needs : ¬ (read.record r).takes e k = true := by
      rw [takes_iff, record]
      rintro ⟨room, fits⟩
      obtain excess | ⟨fresh, long⟩ := full
      · exact absurd fits (by dsimp only; omega)
      · obtain ⟨q, mem, key⟩ | short := room
        · exact fresh q mem key
        · exact absurd short (by dsimp only; omega)
    rw [if_neg (by omega), if_neg needs]

end Sys2Proof.Machine
end

section
/-! PROOFS: frames on the field lines: sent, corrected, damaged and cut short (R9–R12, R23–R26, R38, R188, R189). -/

namespace Sys2Proof.Machine

/-! ## Big-endian fields -/

theorem beBytes_length (width n : Nat) : (beBytes width n).length = width := by
  induction width with
  | zero => rfl
  | succ width ih => rw [beBytes, List.length_cons, ih]

theorem beNat_append (l : List Byte) (b : Byte) : beNat (l ++ [b]) = beNat l * 256 + b.toNat := by
  unfold beNat
  rw [List.foldl_append]
  rfl

theorem beBytes_succ (width n : Nat) : beBytes (width + 1) n = beBytes width (n / 256) ++ [BitVec.ofNat 8 n] := by
  induction width with
  | zero => simp [beBytes]
  | succ width ih =>
    rw [beBytes, ih, beBytes]
    rw [Nat.div_div_eq_div_mul, ← Nat.pow_succ']
    rfl

/-- A field holds its number modulo its size (R188). -/
theorem beNat_beBytes (width n : Nat) : beNat (beBytes width n) = n % 256 ^ width := by
  induction width generalizing n with
  | zero => simp [beBytes, beNat, Nat.mod_one]
  | succ width ih =>
    rw [beBytes_succ, beNat_append, ih, BitVec.toNat_ofNat, Nat.pow_succ' (n := width), Nat.mod_mul]
    omega

theorem crcBytes_length (bytes : List Byte) : (crcBytes bytes).length = 2 := beBytes_length ..

/-! ## The coded header byte -/

theorem decodeHeader_headerOf (kind : BitVec 4) : decodeHeader (headerOf kind) = .read kind (headerOf kind) false := by
  revert kind; decide

theorem decodeHeader_one_wrong (kind : BitVec 4) (i : Fin 8) :
    decodeHeader (headerOf kind ^^^ (1#8 <<< i.val)) = .read kind (headerOf kind) true := by
  revert kind i; decide

theorem decodeHeader_two_wrong (kind : BitVec 4) {i j : Fin 8} (other : i ≠ j) :
    decodeHeader (headerOf kind ^^^ (1#8 <<< i.val) ^^^ (1#8 <<< j.val)) = .doubleError := by
  revert kind i j; decide

/-! ## The first frame of a slot -/

theorem afterPreamble_of_none {before : List Byte} (none : (0x7E : Byte) ∉ before) :
    afterPreamble before = Option.none := by
  induction before with
  | nil => rfl
  | cons a before ih =>
    obtain ⟨other, none⟩ := not_or.mp (List.mem_cons.not.mp none)
    cases before with
    | nil => exact if_neg (Ne.symm other)
    | cons b before =>
      rw [afterPreamble, if_neg fun both => other both.1.symm]
      exact ih none

theorem afterPreamble_append {before : List Byte} (none : (0x7E : Byte) ∉ before) (rest : List Byte) :
    afterPreamble (before ++ 0x7E :: 0x81 :: rest) = some rest := by
  induction before with
  | nil => exact if_pos ⟨rfl, rfl⟩
  | cons a before ih =>
    obtain ⟨other, none⟩ := not_or.mp (List.mem_cons.not.mp none)
    rw [← ih none]
    cases before <;> exact if_neg fun both => other both.1.symm

theorem afterPreamble_lone {before : List Byte} (none : (0x7E : Byte) ∉ before) :
    afterPreamble (before ++ [0x7E]) = some [] := by
  induction before with
  | nil => exact if_pos rfl
  | cons a before ih =>
    obtain ⟨other, none⟩ := not_or.mp (List.mem_cons.not.mp none)
    rw [← ih none]
    cases before <;> exact if_neg fun both => other both.1.symm

section TakeFrame

variable {accepts : BitVec 4 → Option Nat} {before : List Byte} (none : (0x7E : Byte) ∉ before)
include none

theorem takeFrame_of_none : takeFrame accepts before = .silence := by
  unfold takeFrame
  rw [afterPreamble_of_none none]

theorem takeFrame_lone : takeFrame accepts (before ++ [0x7E]) = .broken := by
  unfold takeFrame
  rw [afterPreamble_lone none]

theorem takeFrame_preamble : takeFrame accepts (before ++ [0x7E, 0x81]) = .broken := by
  unfold takeFrame
  rw [afterPreamble_append none]

theorem takeFrame_of_doubleError {received : Byte} (wrong : decodeHeader received = .doubleError) (rest : List Byte) :
    takeFrame accepts (before ++ 0x7E :: 0x81 :: received :: rest) = .broken := by
  unfold takeFrame
  rw [afterPreamble_append none]
  dsimp only
  rw [wrong]

theorem takeFrame_of_not_accepted {received header : Byte} {kind : BitVec 4} {corrected : Bool}
    (decoded : decodeHeader received = .read kind header corrected) (refused : accepts kind = Option.none)
    (rest : List Byte) : takeFrame accepts (before ++ 0x7E :: 0x81 :: received :: rest) = .broken := by
  unfold takeFrame
  rw [afterPreamble_append none]
  dsimp only
  rw [decoded]
  dsimp only
  rw [refused]

variable {received header : Byte} {kind : BitVec 4} {corrected : Bool} {n : Nat}
  (decoded : decodeHeader received = .read kind header corrected) (accepted : accepts kind = some n)
include decoded accepted

theorem takeFrame_of_accepted (rest : List Byte) :
    takeFrame accepts (before ++ 0x7E :: 0x81 :: received :: rest) =
      if rest.length < n + 2 then .broken
      else if crcBytes (header :: rest.take n) = (rest.drop n).take 2 then .frame corrected kind (rest.take n)
      else .broken := by
  unfold takeFrame
  rw [afterPreamble_append none]
  dsimp only
  rw [decoded]
  dsimp only
  rw [accepted]

theorem takeFrame_of_short {rest : List Byte} (short : rest.length < n + 2) :
    takeFrame accepts (before ++ 0x7E :: 0x81 :: received :: rest) = .broken :=
  (takeFrame_of_accepted none decoded accepted rest).trans (if_pos short)

/-- A frame heard whole is taken exactly when its CRC is that of its bytes. -/
theorem takeFrame_of_whole {payload : List Byte} (size : payload.length = n) {crc : List Byte} (two : crc.length = 2)
    (after : List Byte) : takeFrame accepts (before ++ 0x7E :: 0x81 :: received :: (payload ++ crc ++ after)) =
      if crcBytes (header :: payload) = crc then .frame corrected kind payload else .broken := by
  have payload_eq : (payload ++ crc ++ after).take n = payload := by
    rw [← size, List.append_assoc, List.take_left']; rfl
  have crc_eq : ((payload ++ crc ++ after).drop n).take 2 = crc := by
    rw [← size, ← two, List.append_assoc, List.drop_left', List.take_left'] <;> rfl
  rw [takeFrame_of_accepted none decoded accepted, if_neg (by simp only [List.length_append]; omega), payload_eq,
    crc_eq]

end TakeFrame

/-! ## The frame of a kind and a payload -/

section LineFrame

variable {accepts : BitVec 4 → Option Nat} {kind : BitVec 4} {payload before : List Byte}
  (none : (0x7E : Byte) ∉ before)

/-- What stands after the header byte of a frame. -/
def frameTail (kind : BitVec 4) (payload : List Byte) : List Byte := payload ++ crcBytes (headerOf kind :: payload)

theorem lineFrame_eq (kind : BitVec 4) (payload : List Byte) :
    lineFrame kind payload = 0x7E :: 0x81 :: headerOf kind :: frameTail kind payload := rfl

theorem frameTail_length (kind : BitVec 4) (payload : List Byte) :
    (frameTail kind payload).length = payload.length + 2 := by
  rw [frameTail, List.length_append, crcBytes_length]

include none in
theorem takeFrame_two_wrong {i j : Fin 8} (other : i ≠ j) (rest : List Byte) :
    takeFrame accepts (before ++ 0x7E :: 0x81 :: (headerOf kind ^^^ (1#8 <<< i.val) ^^^ (1#8 <<< j.val)) :: rest) =
      .broken := takeFrame_of_doubleError none (decodeHeader_two_wrong kind other) rest

variable (accepted : accepts kind = some payload.length)
include none accepted

theorem takeFrame_sent (after : List Byte) :
    takeFrame accepts (before ++ 0x7E :: 0x81 :: headerOf kind :: (frameTail kind payload ++ after)) =
      .frame false kind payload :=
  (takeFrame_of_whole none (decodeHeader_headerOf kind) accepted rfl (crcBytes_length _) after).trans (if_pos rfl)

theorem takeFrame_one_wrong (i : Fin 8) (after : List Byte) :
    takeFrame accepts (before ++ 0x7E :: 0x81 :: (headerOf kind ^^^ (1#8 <<< i.val)) ::
      (frameTail kind payload ++ after)) = .frame true kind payload :=
  (takeFrame_of_whole none (decodeHeader_one_wrong kind i) accepted rfl (crcBytes_length _) after).trans (if_pos rfl)

theorem takeFrame_other_crc {body crc crc' : List Byte} (split : frameTail kind payload = body ++ crc)
    (two : crc.length = 2) (two' : crc'.length = 2) (other : crc' ≠ crc) (after : List Byte) :
    takeFrame accepts (before ++ 0x7E :: 0x81 :: headerOf kind :: (body ++ crc' ++ after)) = .broken := by
  obtain ⟨same, isCrc⟩ := List.append_inj' split ((crcBytes_length _).trans two.symm)
  subst same
  rw [takeFrame_of_whole none (decodeHeader_headerOf kind) accepted rfl two' after,
    if_neg fun same => other (same.symm.trans isCrc)]

theorem takeFrame_take {n : Nat} (some_byte : 1 ≤ n) (short : n < (lineFrame kind payload).length) :
    takeFrame accepts (before ++ (lineFrame kind payload).take n) = .broken := by
  rw [lineFrame_eq] at short ⊢
  rw [List.length_cons, List.length_cons, List.length_cons, frameTail_length] at short
  obtain rfl | rfl | ⟨m, rfl⟩ : n = 1 ∨ n = 2 ∨ ∃ m, n = m + 3 := by
    rcases Nat.lt_or_ge n 3 with small | large
    · omega
    · exact .inr (.inr ⟨n - 3, by omega⟩)
  · exact takeFrame_lone none
  · exact takeFrame_preamble none
  · refine takeFrame_of_short none (decodeHeader_headerOf kind) accepted ?_
    rw [List.length_take, frameTail_length]
    omega

end LineFrame

/-! ## Upstream frames -/

theorem vehicleOf_value (v : VehicleState) : vehicleOf v.value = some v := by cases v <;> rfl

/-- The bytes of a STATUS payload (R9). -/
def statusBytes (vehicle : VehicleState) (requested : Word16) (fault : Byte) (token : Option Token) : List Byte :=
  vehicle.value :: (bytes16 requested ++ fault ::
    (match token with
      | some t => 1#8 :: beBytes 16 t.toNat
      | none => 0#8 :: beBytes 16 0))

theorem statusFrame_eq (vehicle : VehicleState) (requested : Word16) (fault : Byte) (token : Option Token) :
    statusFrame vehicle requested fault token = lineFrame 0x5#4 (statusBytes vehicle requested fault token) := rfl

theorem statusBytes_length (vehicle : VehicleState) (requested : Word16) (fault : Byte) (token : Option Token) :
    (statusBytes vehicle requested fault token).length = 21 := by
  cases token <;> simp [statusBytes, bytes16, beBytes_length]

theorem toNat_bytes16 (w : Word16) : (w.extractLsb' 8 8).toNat * 256 + (w.extractLsb' 0 8).toNat = w.toNat := by
  have whole := congrArg BitVec.toNat (word16_bytes w)
  rw [word16, BitVec.toNat_append, Nat.shiftLeft_eq_mul_pow, ← Nat.mul_comm, ← Nat.two_pow_add_eq_or_of_lt] at whole
  · omega
  · exact (w.extractLsb' 0 8).isLt

theorem statusPayload_bytes (vehicle : VehicleState) (requested : Word16) (fault : Byte) (token : Option Token) :
    statusPayload (statusBytes vehicle requested fault token) = some ⟨vehicle, requested.toNat, fault, token⟩ := by
  cases token with
  | none =>
    show (match vehicleOf vehicle.value with
      | some vehicle => some (StatusFrame.mk vehicle _ _ _)
      | none => none) = _
    rw [vehicleOf_value, toNat_bytes16]
    rfl
  | some t =>
    show (match vehicleOf vehicle.value with
      | some vehicle => some (StatusFrame.mk vehicle _ _ (some (BitVec.ofNat 128 (beNat (beBytes 16 t.toNat)))))
      | none => none) = _
    rw [vehicleOf_value, toNat_bytes16, beNat_beBytes, show (256 : Nat) ^ 16 = 2 ^ 128 by norm_num,
      Nat.mod_eq_of_lt t.isLt, BitVec.ofNat_toNat,
      BitVec.setWidth_eq]

theorem meterPayload_bytes (counter power : Word32) :
    meterPayload (bytes32 counter ++ bytes32 power) = some ⟨counter, power.toInt⟩ := by
  show some (MeterFrame.mk (word32 _ _ _ _) (signed32 (word32 _ _ _ _))) = _
  rw [word32_bytes, word32_bytes]
  rfl

theorem upstream_of_broken {heard : List Byte} (broken : takeFrame upstreamLength heard = .broken) :
    upstream heard = .discarded := by
  unfold upstream
  rw [broken]

theorem upstream_of_silence {heard : List Byte} (silence : takeFrame upstreamLength heard = .silence) :
    upstream heard = .nothing := by
  unfold upstream
  rw [silence]

theorem upstream_of_status {heard payload : List Byte} {corrected : Bool} {f : StatusFrame}
    (frame : takeFrame upstreamLength heard = .frame corrected 0x5#4 payload) (read : statusPayload payload = some f) :
    upstream heard = .status corrected f := by
  unfold upstream
  rw [frame]
  dsimp only
  rw [if_pos rfl, read]

theorem upstream_of_meter {heard payload : List Byte} {corrected : Bool} {f : MeterFrame}
    (frame : takeFrame upstreamLength heard = .frame corrected 0x6#4 payload) (read : meterPayload payload = some f) :
    upstream heard = .meter corrected f := by
  unfold upstream
  rw [frame]
  dsimp only
  rw [if_neg (by decide), read]

/-- How the frame of a kind is heard in an upstream link slot, by what a frame taken whole is found to be. -/
theorem upstream_frame {kind : BitVec 4} {payload before : List Byte} {found : Bool → Upstream}
    (reads : ∀ heard corrected, takeFrame upstreamLength heard = .frame corrected kind payload →
      upstream heard = found corrected)
    (accepted : upstreamLength kind = some payload.length) (none : (0x7E : Byte) ∉ before) (after : List Byte)
    {header : Byte} {rest : List Byte} (frame : lineFrame kind payload = 0x7E :: 0x81 :: header :: rest) :
    header = headerOf kind ∧ rest.length = payload.length + 2 ∧
    upstream (before ++ 0x7E :: 0x81 :: header :: rest ++ after) = found false ∧
    (∀ i : Fin 8, upstream (before ++ 0x7E :: 0x81 :: (header ^^^ (1#8 <<< i.val)) :: rest ++ after) = found true) ∧
    (∀ i j : Fin 8, i ≠ j →
      upstream (before ++ 0x7E :: 0x81 :: (header ^^^ (1#8 <<< i.val) ^^^ (1#8 <<< j.val)) :: rest ++ after) =
        .discarded) ∧
    (∀ (body : List Byte) (high low x y : Byte), rest = body ++ [high, low] → (x, y) ≠ (high, low) →
      upstream (before ++ 0x7E :: 0x81 :: header :: body ++ [x, y] ++ after) = .discarded) ∧
    (∀ n : Nat, 1 ≤ n → n < payload.length + 5 →
      upstream (before ++ (0x7E :: 0x81 :: header :: rest).take n) = .discarded) := by
  rw [lineFrame_eq] at frame
  obtain ⟨rfl, rfl⟩ : headerOf kind = header ∧ frameTail kind payload = rest := by simpa using frame
  refine ⟨rfl, frameTail_length .., reads _ _ ?_, fun i => reads _ _ ?_, fun i j other => upstream_of_broken ?_,
    fun body high low x y split other => upstream_of_broken ?_, fun n some_byte short => upstream_of_broken ?_⟩
  · simpa using takeFrame_sent none accepted after
  · simpa using takeFrame_one_wrong none accepted i after
  · simpa using takeFrame_two_wrong none other (frameTail kind payload ++ after)
  · simpa using takeFrame_other_crc none accepted (crc' := [x, y]) split rfl rfl (by simpa using other) after
  · refine takeFrame_take none accepted some_byte ?_
    rw [lineFrame_eq, List.length_cons, List.length_cons, List.length_cons, frameTail_length]
    exact short

/-- Settles O35: each kind's frame is taken by its payload length, and a STATUS or METER payload is read back. -/
theorem framesAreHeard : Obligations.FramesAreHeard := by
  intro before after none
  refine ⟨upstream_of_silence (takeFrame_of_none none), fun vehicle requested fault token header rest frame => ?_,
    fun counter power header rest frame => ?_⟩
  · have size := statusBytes_length vehicle requested fault token
    obtain ⟨isHeader, length, heard⟩ := upstream_frame (found := fun corrected => .status corrected _)
      (fun _ _ taken => upstream_of_status taken (statusPayload_bytes vehicle requested fault token))
      (by rw [size]; rfl) none after frame
    rw [size] at length heard
    exact ⟨isHeader.trans (by decide), length, heard⟩
  · obtain ⟨isHeader, length, heard⟩ := upstream_frame (found := fun corrected => .meter corrected _)
      (fun _ _ taken => upstream_of_meter taken (meterPayload_bytes counter power)) (by rfl) none after frame
    exact ⟨isHeader.trans (by decide), length, heard⟩

/-! ## Replies -/

theorem lineReply_of_broken {k : NodeId} {heard : List Byte} (broken : takeFrame (replyLength k) heard = .broken)
    (period : Nat) : lineReply k period heard = .discarded := by
  unfold lineReply
  rw [broken]

theorem lineReply_of_silence {k : NodeId} {heard : List Byte} (silence : takeFrame (replyLength k) heard = .silence)
    (period : Nat) : lineReply k period heard = .silent := by
  unfold lineReply
  rw [silence]

theorem lineReply_of_frame {k : NodeId} {heard payload : List Byte} {corrected : Bool} {kind : BitVec 4}
    {n i : Byte} {sample : Sample} (frame : takeFrame (replyLength k) heard = .frame corrected kind payload)
    (read : samplePayload payload = some (n, i, sample)) (period : Nat) : lineReply k period heard =
      if n.toNat = k.val ∧ i.toNat = period then .valid corrected sample else .discarded := by
  unfold lineReply
  rw [frame]
  dsimp only
  rw [read]

theorem samplePayload_short (n i : Byte) (power : Word32) :
    samplePayload (n :: i :: bytes32 power) = some (n, i, ⟨power.toInt, 0, 0, 0⟩) := by
  show some (n, i, Sample.mk (signed32 (word32 _ _ _ _)) 0 0 0) = _
  rw [word32_bytes]
  rfl

theorem samplePayload_long (n i : Byte) (power discharge charge : Word32) (energy : Word16) :
    samplePayload (n :: i :: (bytes32 power ++ bytes16 energy ++ bytes32 discharge ++ bytes32 charge)) =
      some (n, i, ⟨power.toInt, energy.toNat, discharge.toNat, charge.toNat⟩) := by
  show some (n, i, Sample.mk (signed32 (word32 _ _ _ _)) (word16 _ _).toNat (word32 _ _ _ _).toNat
    (word32 _ _ _ _).toNat) = _
  rw [word32_bytes, word32_bytes, word32_bytes, word16_bytes]
  rfl

theorem nodeByte_toNat (k : NodeId) : (BitVec.ofNat 8 k.val).toNat = k.val := by
  rw [BitVec.toNat_ofNat]
  omega

theorem replyLength_self (k : NodeId) : replyLength k (expectedKind k) = some (if k.val = 8 then 16 else 6) :=
  if_pos rfl

theorem headerOf_expectedKind (k : NodeId) :
    headerOf (expectedKind k) = if k = 8 then 0xE1 else if k = 9 then 0x66 else 0xD2 := by
  revert k; decide

/-- The kinds of two nodes' replies agree for two canopy converters alone. -/
theorem replyLength_of_expectedKind (j k : NodeId) (n : Nat) (accepted : replyLength j (expectedKind k) = some n) :
    replyLength j (expectedKind k) = replyLength k (expectedKind k) := by
  revert accepted
  have kinds : ∀ j k : NodeId, replyLength j (expectedKind k) = none ∨
      replyLength j (expectedKind k) = replyLength k (expectedKind k) := by decide
  obtain refused | same := kinds j k
  · rw [refused]
    exact nofun
  · exact fun _ => same

/-- How a node's reply is judged in a reply position, by what its payload spells. -/
theorem lineReply_frame {k : NodeId} {payload before : List Byte} {n index : Byte} {sample : Sample}
    (own : n.toNat = k.val) (read : samplePayload payload = some (n, index, sample))
    (size : payload.length = if k.val = 8 then 16 else 6) (none : (0x7E : Byte) ∉ before) (after : List Byte)
    (period : Nat) {header high low : Byte} {rest frame : List Byte} (sent : frame = lineFrame (expectedKind k) payload)
    (split : frame = 0x7E :: 0x81 :: header :: rest ++ [high, low]) :
    header = headerOf (expectedKind k) ∧ frame.length = payload.length + 5 ∧
    lineReply k period before = .silent ∧
    (index.toNat = period →
      lineReply k period (before ++ frame ++ after) = .valid false sample ∧
      (∀ i : Fin 8,
        lineReply k period (before ++ 0x7E :: 0x81 :: (header ^^^ (1#8 <<< i.val)) :: rest ++ [high, low] ++ after) =
          .valid true sample)) ∧
    (index.toNat ≠ period → lineReply k period (before ++ frame ++ after) = .discarded) ∧
    (∀ j : NodeId, j ≠ k → lineReply j period (before ++ frame ++ after) = .discarded) ∧
    (∀ i j : Fin 8, i ≠ j →
      lineReply k period (before ++ 0x7E :: 0x81 :: (header ^^^ (1#8 <<< i.val) ^^^ (1#8 <<< j.val)) :: rest ++
        [high, low] ++ after) = .discarded) ∧
    (∀ x y : Byte, (x, y) ≠ (high, low) →
      lineReply k period (before ++ 0x7E :: 0x81 :: header :: rest ++ [x, y] ++ after) = .discarded) ∧
    (∀ n : Nat, 1 ≤ n → n < frame.length → lineReply k period (before ++ frame.take n) = .discarded) := by
  have accepted : replyLength k (expectedKind k) = some payload.length := by rw [size, replyLength_self]
  subst sent
  rw [lineFrame_eq] at split ⊢
  obtain ⟨rfl, isRest⟩ : headerOf (expectedKind k) = header ∧ frameTail (expectedKind k) payload =
    rest ++ [high, low] := by
    simpa using split
  have judged (corrected : Bool) (heard : List Byte)
      (taken : takeFrame (replyLength k) heard = .frame corrected (expectedKind k) payload) :
      lineReply k period heard = if index.toNat = period then .valid corrected sample else .discarded := by
    rw [lineReply_of_frame taken read]
    simp only [own, true_and]
  have heard : takeFrame (replyLength k) (before ++ 0x7E :: 0x81 :: headerOf (expectedKind k) ::
      (frameTail (expectedKind k) payload) ++ after) = .frame false (expectedKind k) payload := by
    simpa using takeFrame_sent none accepted after
  refine ⟨rfl, by simp [frameTail_length], lineReply_of_silence (takeFrame_of_none none) period,
    fun now => ⟨(judged _ _ heard).trans (if_pos now), fun i => (judged true _ ?_).trans (if_pos now)⟩,
    fun late => (judged _ _ heard).trans (if_neg late), fun j other => ?_, fun i j other => lineReply_of_broken ?_ _,
    fun x y other => lineReply_of_broken ?_ _, fun n some_byte short => lineReply_of_broken ?_ _⟩
  · have taken := takeFrame_one_wrong none accepted i after
    rw [isRest] at taken
    simpa using taken
  · cases kind : replyLength j (expectedKind k) with
    | none =>
      refine lineReply_of_broken ?_ _
      simpa using takeFrame_of_not_accepted none (decodeHeader_headerOf (expectedKind k)) kind
        (frameTail (expectedKind k) payload ++ after)
    | some m =>
      have same := replyLength_of_expectedKind j k m kind
      have taken := takeFrame_sent none (accepts := replyLength j) (same.trans accepted) after
      rw [lineReply_of_frame (heard := _) (by simpa using taken) read, if_neg]
      rintro ⟨isNode, -⟩
      exact other (Fin.ext (isNode.symm.trans own))
  · simpa using takeFrame_two_wrong none other (rest ++ [high, low] ++ after)
  · simpa using takeFrame_other_crc none accepted (crc' := [x, y]) isRest rfl rfl (by simpa using other) after
  · exact takeFrame_take none accepted some_byte short

/-- Settles O43: a reply is a frame of its node's kind, and its payload names the node and the period. -/
theorem repliesAreJudged : Obligations.RepliesAreJudged := by
  intro before after k period index power discharge charge energy sample header high low rest frame none
    short long split
  by_cases battery : k = 8
  · obtain ⟨isFrame, isSample⟩ := long battery
    subst isSample battery
    obtain ⟨isHeader, length, judged⟩ := lineReply_frame (k := 8) (n := 8#8) (by rfl)
      (samplePayload_long 8#8 index power discharge charge energy) (by rfl) none after period isFrame split
    exact ⟨isHeader.trans (headerOf_expectedKind 8), length, judged⟩
  · obtain ⟨isFrame, isSample⟩ := short battery
    have other : k.val ≠ 8 := fun same => battery (Fin.ext same)
    subst isSample
    obtain ⟨isHeader, length, judged⟩ := lineReply_frame (nodeByte_toNat k)
      (samplePayload_short (BitVec.ofNat 8 k.val) index power) (by rw [if_neg other]; rfl) none after period
        isFrame split
    exact ⟨isHeader.trans (headerOf_expectedKind k), by rw [if_neg battery]; exact length, judged⟩

end Sys2Proof.Machine
end

section
/-! PROOFS: the canopy line: polls, the measurement window and the end of a cycle (R22–R33, R37). -/

namespace Sys2Proof.Machine

/-! ## Polls -/

theorem ceilingBytes_eq (c : Option Nat) : ceilingBytes c = beBytes 4 (c.getD 0xFFFFFFFF) := by cases c <;> rfl

theorem signedBytes_eq (n : Int) : signedBytes n = beBytes 4 (n % 4294967296).toNat := by
  unfold signedBytes
  rw [BitVec.toNat_ofInt]
  rfl

theorem pollFrame_eq (period : Nat) (cycle : Word32) (ceilings : Vector (Option Nat) 8) (setpoint : Int) :
    pollFrame period cycle ceilings setpoint =
      lineFrame 0x9#4 (BitVec.ofNat 8 period :: BitVec.ofNat 8 cycle.toNat ::
        ((ceilings.toList.flatMap fun c => beBytes 4 (c.getD 0xFFFFFFFF)) ++
          beBytes 4 (setpoint % 4294967296).toNat)) := by
  unfold pollFrame
  rw [signedBytes_eq, funext ceilingBytes_eq]

theorem flatMap_fields_length (width : Nat) (field : Option Nat → Nat) (l : List (Option Nat)) :
    (l.flatMap fun c => beBytes width (field c)).length = l.length * width := by
  induction l with
  | nil => simp
  | cons c l ih => rw [List.flatMap_cons, List.length_append, beBytes_length, ih, List.length_cons]; ring

theorem lineFrame_length (kind : BitVec 4) (payload : List Byte) :
    (lineFrame kind payload).length = payload.length + 5 := by
  rw [lineFrame_eq, List.length_cons, List.length_cons, List.length_cons, frameTail_length]

theorem pollTargets_of_none {s : State} (none : s.ale.current = none) :
    s.pollTargets = (Vector.replicate 8 Option.none, 0) := by
  unfold State.pollTargets
  rw [none]

theorem pollTargets_of_some {s : State} {g : GrantSet} (current : s.ale.current = some g) :
    s.pollTargets = (g.ceilings, g.setpoint) := by
  unfold State.pollTargets
  rw [current]

/-- Settles O42: the poll carries the targets of the current grant set. -/
theorem pollSendsTheTargets : Obligations.PollSendsTheTargets := by
  intro s i ceilings setpoint frame isNext isNone isSome isFrame
  have targets : ceilings = s.pollTargets.1.toList ∧ setpoint = s.pollTargets.2 := by
    cases current : s.ale.current with
    | none =>
      obtain ⟨rfl, rfl⟩ := isNone current
      rw [pollTargets_of_none current]
      exact ⟨rfl, rfl⟩
    | some g =>
      obtain ⟨rfl, rfl⟩ := isSome g current
      rw [pollTargets_of_some current]
      exact ⟨rfl, rfl⟩
  obtain ⟨isCeilings, isSetpoint⟩ := targets
  have sent : pollFrame i s.clc.cycleNumber s.pollTargets.1 s.pollTargets.2 = frame := by
    rw [pollFrame_eq, isFrame, isCeilings, isSetpoint]
  have next : s.clc.nextPeriod = i := isNext.symm
  have poll : exec .poll s = if s.clc.nextPeriod < s.clc.periodsTaken then
      .next { s with
        clc := { s.clc with periodIndex := s.clc.nextPeriod, polled := true }
        lines := { s.lines with
          canopy := some (pollFrame s.clc.nextPeriod s.clc.cycleNumber s.pollTargets.1 s.pollTargets.2) } }
      else .next s := rfl
  rw [poll, next, sent]
  refine ⟨fun inside => ⟨if_pos inside, ?_⟩, fun past => if_neg (by omega)⟩
  rw [isFrame, lineFrame_length, List.length_cons, List.length_cons, List.length_append, flatMap_fields_length,
    beBytes_length, isCeilings, Vector.length_toList]

/-! ## Replies -/

theorem inWindow_iff (c : CanopyLine) : c.inWindow = true ↔ c.windowFrom ≤ c.periodIndex ∧ c.periodIndex ≤
    c.windowTo := by
  unfold CanopyLine.inWindow
  simp

theorem modNode_modNode (s : State) (k : NodeId) (f g : Node → Node) :
    (s.modNode k f).modNode k g = s.modNode k fun n => g (f n) := by
  unfold State.modNode State.node
  dsimp only
  rw [put_self, put_put]

/-- Settles O44: a valid reply is counted, and summed when the period lies in the window. -/
theorem repliesEnterTheWindow : Obligations.RepliesEnterTheWindow := by
  intro s heard inWindow count sum write isWindow isCount isSum isWrite
  rw [← inWindow_iff] at isWindow
  have counts (k : NodeId) (corrected : Bool) : s.countReply k corrected = write k (count (s.node k) corrected) := by
    rw [isWrite, isCount]
    rfl
  have sums (k : NodeId) (corrected : Bool) (w : Int) :
      (s.countReply k corrected).addSample k w = write k (sum (count (s.node k) corrected) w) := by
    unfold State.countReply State.addSample
    rw [modNode_modNode, isWrite, isSum, isCount]
    rfl
  refine ⟨fun j k corrected x isNode valid => ?_, fun corrected x valid => ?_, fun corrected x valid => ?_,
    fun k discarded => ?_, fun k silent => ?_, fun slot b owns discarded => ?_⟩
  · have node : canopyNode j = k := Fin.ext isNode.symm
    have reply : exec (.canopySample j heard) s = .next (if s.clc.inWindow then
        (s.countReply k corrected).addSample k (clampCanopy s.settings.converterRating[j.val] x.power)
        else s.countReply k corrected) := by
      show execCanopySample j heard s = _
      unfold execCanopySample
      rw [node, valid]
    rw [reply]
    refine ⟨fun outside => ?_, fun inside => ?_⟩
    · rw [if_neg (isWindow.not.mp outside), counts]
    · rw [if_pos (isWindow.mp inside), sums]
      rfl
  · have reply : exec (.batterySample heard) s = .next (if s.clc.inWindow then
        ((s.countReply 8 corrected).addSample 8 (clampLine x.power)).setBatteryWindow x
        else s.countReply 8 corrected) := by
      show execBatterySample heard s = _
      unfold execBatterySample
      rw [valid]
    rw [reply]
    refine ⟨fun outside => ?_, fun t inside isSum => ?_⟩
    · rw [if_neg (isWindow.not.mp outside), counts]
    · rw [if_pos (isWindow.mp inside), sums, isSum, Nat.min_comm x.charge, Nat.min_comm x.maxDischarge,
        Nat.min_comm x.maxCharge]
      rfl
  · have reply : exec (.meterSample heard) s = .next (if s.clc.inWindow then
        (s.countReply 9 corrected).addSample 9 (clampLine x.power) else s.countReply 9 corrected) := by
      show execMeterSample heard s = _
      unfold execMeterSample
      rw [valid]
    rw [reply]
    refine ⟨fun outside => ?_, fun inside => ?_⟩
    · rw [if_neg (isWindow.not.mp outside), counts]
    · rw [if_pos (isWindow.mp inside), sums]
      rfl
  · show execCanopyDiscard k heard s = _
    unfold execCanopyDiscard
    rw [discarded, isWrite]
    rfl
  · show execNoReply k heard s = _
    unfold execNoReply
    rw [silent, isWrite]
    rfl
  · show execDiscardedFrame slot heard s = _
    unfold execDiscardedFrame
    rw [upOwner_of_owns owns, discarded]
    rfl

/-! ## The end of a cycle -/

theorem node_closeWindows (s : State) (k : NodeId) :
    s.closeWindows.node k = (s.node k).closeWindow s.settings.holdCycles := Vector.getElem_ofFn ..

/-- The part once a cycle has ended (R29). -/
def State.cycleEnded (s : State) : State := (s.closeWindows.handSet s.closeWindows.measurementSet).beginCycle

theorem exec_cycleEnd (s : State) : exec .cycleEnd s = .next s.cycleEnded := rfl

theorem cycleEnded_frame (s : State) : s.cycleEnded = { s with
    clc := s.cycleEnded.clc
    ale := { s.ale with inbox := s.ale.inbox ++ [s.closeWindows.measurementSet] }
    ivm := { s.ivm with inbox := s.ivm.inbox ++ [s.closeWindows.measurementSet] } } := rfl

/-- A node once its cycle has ended: its window is closed and empty. -/
theorem node_cycleEnded (s : State) (k : NodeId) : s.cycleEnded.node k =
    { (s.node k).closeWindow s.settings.holdCycles with windowSum := 0, windowCount := 0 } := by
  have node : s.cycleEnded.node k = { s.closeWindows.node k with windowSum := 0, windowCount := 0 } :=
    Vector.getElem_ofFn ..
  rw [node, node_closeWindows]

theorem standing_cycleEnded (s : State) (k : NodeId) :
    (s.cycleEnded.node k).standing = (s.closeWindows.node k).standing := by rw [node_cycleEnded, node_closeWindows]

theorem given_closeWindows (s : State) (k : NodeId) : (s.closeWindows.node k).given =
    if (s.cycleEnded.node k).standing = .lost then 0 else (s.cycleEnded.node k).mean := by
  rw [standing_cycleEnded, show (s.cycleEnded.node k).mean = (s.closeWindows.node k).mean by
    rw [node_cycleEnded, node_closeWindows]]
  rfl

theorem battery_cycleEnded (s : State) :
    s.cycleEnded.clc.battery = { s.clc.battery.closeWindow with windowPresent := false } := rfl

theorem closeWindow_of_heard {n : Node} (heard : 1 ≤ n.windowCount) (hold : Nat) : n.closeWindow hold =
    { n with mean := n.windowSum.tdiv n.windowCount, standing := .live, holdCount := hold } := if_pos heard

theorem closeWindow_of_held {n : Node} (silent : n.windowCount = 0) (held : 1 ≤ n.holdCount) (hold : Nat) :
    n.closeWindow hold = { n with standing := .held, holdCount := min n.holdCount hold - 1 } :=
  (if_neg (by omega)).trans (if_pos held)

theorem closeWindow_of_lost {n : Node} (silent : n.windowCount = 0) (lost : n.holdCount = 0) (hold : Nat) :
    n.closeWindow hold = { n with standing := .lost } := (if_neg (by omega)).trans (if_neg (by omega))

theorem canopyMeans_sum (s : State) : (canopyNodes.map s.canopyMean).sum = (Vector.ofFn s.canopyMean).toList.sum := by
  rw [Vector.toList_ofFn]
  rfl

/-- What the end of a cycle leaves of a node (R30, R31). -/
theorem node_cycleEnded_cases (s : State) (k : NodeId) :
    s.cycleEnded.node k = { s.node k with
      standing := (s.cycleEnded.node k).standing
      holdCount := (s.cycleEnded.node k).holdCount
      mean := (s.cycleEnded.node k).mean
      windowSum := 0
      windowCount := 0 } ∧
    (1 ≤ (s.node k).windowCount →
      (s.cycleEnded.node k).mean = (s.node k).windowSum.tdiv (s.node k).windowCount ∧
        (s.cycleEnded.node k).standing = .live ∧ (s.cycleEnded.node k).holdCount = s.settings.holdCycles) ∧
    ((s.node k).windowCount = 0 →
      (s.cycleEnded.node k).mean = (s.node k).mean ∧
      (1 ≤ (s.node k).holdCount → (s.cycleEnded.node k).standing = .held ∧
        (s.cycleEnded.node k).holdCount = min (s.node k).holdCount s.settings.holdCycles - 1) ∧
      ((s.node k).holdCount = 0 →
        (s.cycleEnded.node k).standing = .lost ∧ (s.cycleEnded.node k).holdCount = 0)) := by
  rw [node_cycleEnded]
  refine ⟨?_, fun heard => ?_, fun silent => ⟨?_, fun held => ?_, fun lost => ?_⟩⟩
  · unfold Node.closeWindow
    split
    · rfl
    · split <;> rfl
  · rw [closeWindow_of_heard heard]
    exact ⟨rfl, rfl, rfl⟩
  · by_cases held : 1 ≤ (s.node k).holdCount
    · rw [closeWindow_of_held silent held]
    · rw [closeWindow_of_lost silent (by omega)]
  · rw [closeWindow_of_held silent held]
    exact ⟨rfl, rfl⟩
  · rw [closeWindow_of_lost silent lost]
    exact ⟨rfl, lost⟩

/-- The figures of the canopy nodes in the set (R32). -/
theorem measurementSet_canopy (s : State) (j : Fin 8) (k : NodeId) (isNode : k.val = j.val) :
    s.closeWindows.measurementSet.canopyMeans[j.val] =
      if (s.cycleEnded.node k).standing = .lost then 0 else (s.cycleEnded.node k).mean.toNat := by
  have entry : s.closeWindows.measurementSet.canopyMeans[j.val] = (s.closeWindows.node (canopyNode j)).given.toNat :=
    Vector.getElem_ofFn ..
  rw [entry, show canopyNode j = k from Fin.ext isNode.symm, given_closeWindows]
  split <;> rfl

theorem measurementSet_line_eq (t : State) :
    t.measurementSet.battery = (t.node 8).given ∧
    t.measurementSet.maxDischarge = (if (t.node 8).standing = .lost then 0 else t.clc.battery.maxDischarge) ∧
    t.measurementSet.maxCharge = (if (t.node 8).standing = .lost then 0 else t.clc.battery.maxCharge) ∧
    t.measurementSet.grid = (t.node 9).given := ⟨rfl, rfl, rfl, rfl⟩

/-- The figures of the battery and of the grid meter in the set (R32, R33). -/
theorem measurementSet_line (s : State) :
    s.closeWindows.measurementSet.battery =
      (if (s.cycleEnded.node 8).standing = .lost then 0 else (s.cycleEnded.node 8).mean) ∧
    s.closeWindows.measurementSet.maxDischarge =
      (if (s.cycleEnded.node 8).standing = .lost then 0 else s.cycleEnded.clc.battery.maxDischarge) ∧
    s.closeWindows.measurementSet.maxCharge =
      (if (s.cycleEnded.node 8).standing = .lost then 0 else s.cycleEnded.clc.battery.maxCharge) ∧
    s.closeWindows.measurementSet.grid =
      (if (s.cycleEnded.node 9).standing = .lost then 0 else (s.cycleEnded.node 9).mean) := by
  obtain ⟨stored, discharge, charging, grid⟩ := measurementSet_line_eq s.closeWindows
  have most : s.cycleEnded.clc.battery.maxDischarge = s.closeWindows.clc.battery.maxDischarge := rfl
  have charge : s.cycleEnded.clc.battery.maxCharge = s.closeWindows.clc.battery.maxCharge := rfl
  refine ⟨stored.trans (given_closeWindows s 8), ?_, ?_, grid.trans (given_closeWindows s 9)⟩
  · rw [discharge, standing_cycleEnded, most]
  · rw [charging, standing_cycleEnded, charge]

/-- The nodes that the set marks (R32, R33). -/
theorem measurementSet_marks (s : State) :
    (∀ k : NodeId,
      s.closeWindows.measurementSet.held[k.val] = decide ((s.cycleEnded.node k).standing = .held) ∧
      s.closeWindows.measurementSet.lost[k.val] = decide ((s.cycleEnded.node k).standing = .lost)) ∧
    (s.closeWindows.measurementSet.meterLost = true ↔ (s.cycleEnded.node 9).standing = .lost) := by
  refine ⟨fun k => ?_, ?_⟩
  · rw [standing_cycleEnded]
    exact ⟨Vector.getElem_ofFn .., Vector.getElem_ofFn ..⟩
  · rw [standing_cycleEnded]
    exact decide_eq_true_iff

theorem battery_closeWindow (x : BatteryEntry) : { x.closeWindow with windowPresent := false } = { x with
    windowPresent := false
    charge := if x.windowPresent then x.windowCharge else x.charge
    maxDischarge := if x.windowPresent then x.windowMaxDischarge else x.maxDischarge
    maxCharge := if x.windowPresent then x.windowMaxCharge else x.maxCharge } := by
  unfold BatteryEntry.closeWindow
  split <;> rfl

/-- Settles O45: the windows close, the set is formed of the node table, and the next cycle begins. -/
theorem cycleEndPublishesTheSet : Obligations.CycleEndPublishesTheSet := by
  rintro s hold rfl
  obtain ⟨battery, discharge, charging, grid⟩ := measurementSet_line s
  obtain ⟨marks, meter⟩ := measurementSet_marks s
  exact ⟨s.cycleEnded, s.closeWindows.measurementSet, exec_cycleEnd s, cycleEnded_frame s, node_cycleEnded_cases s,
    (battery_cycleEnded s).trans (battery_closeWindow _), rfl, rfl, rfl, rfl, rfl, rfl, rfl, rfl, rfl, rfl,
    measurementSet_canopy s, canopyMeans_sum s.closeWindows, battery, rfl, discharge, charging, grid, marks, meter⟩

end Sys2Proof.Machine
end

section
/-! PROOFS: curtailments and settlement intervals (R41, R42, R165–R173). -/

namespace Sys2Proof.Machine

/-! ## Curtailments -/

/-- Settles O46: each request is one branch, and an overlay with time left stands. -/
theorem curtailmentComesAndGoes : Obligations.CurtailmentComesAndGoes := by
  refine fun s => ⟨fun p e limit duration taken => ?_, fun p e taken => ?_, fun o installed => ?_⟩
  · rw [show exec (.curtail p limit duration) s = .next ((curtail limit duration s).send p) from serve_taken taken _]
    unfold curtail
    refine ⟨fun bad => by rw [if_pos bad], fun some_time fits => ?_⟩
    have good : ¬ (duration = 0 ∨ 86400 < duration.toNat) := by
      rintro (rfl | long)
      · exact absurd some_time (by decide)
      · omega
    rw [if_neg good, Nat.min_comm 2000000]
    by_cases above : 2000000 < limit.toNat
    · rw [if_pos above, if_neg (by omega)]
      rfl
    · rw [if_neg above, if_pos (by omega)]
      rfl
  · rw [show exec (.curtailEnd p) s = .next ((curtailEnd s).send p) from serve_taken taken _]
    unfold curtailEnd
    refine ⟨fun none => by rw [none]; rfl, fun active => ?_⟩
    rw [if_pos (Option.isSome_iff_ne_none.mpr active)]
    rfl
  · show (_ → execCurtailmentExpiry s = _) ∧ (_ → execCurtailmentExpiry s = _)
    unfold execCurtailmentExpiry
    rw [installed]
    exact ⟨fun ended => if_pos ended, fun left => if_neg (by omega)⟩

/-! ## Six quantities -/

theorem quantity_map {q : Six → Nat} (mem : q ∈ sixQuantities) (f : Nat → Nat) (a : Six) : q (a.map f) = f (q a) := by
  simp only [sixQuantities, List.mem_cons, List.not_mem_nil, or_false] at mem
  obtain rfl | rfl | rfl | rfl | rfl | rfl := mem <;> rfl

theorem quantity_zip {q : Six → Nat} (mem : q ∈ sixQuantities) (f : Nat → Nat → Nat) (a b : Six) :
    q (a.zip f b) = f (q a) (q b) := by
  simp only [sixQuantities, List.mem_cons, List.not_mem_nil, or_false] at mem
  obtain rfl | rfl | rfl | rfl | rfl | rfl := mem <;> rfl

theorem fit32_of_lt {n : Nat} (fits : n < 2 ^ 32) : fit32 n = n := if_pos fits

theorem fit64_of_lt {n : Nat} (fits : n < 2 ^ 64) : fit64 n = n := if_pos fits

/-! ## Integration -/

theorem toNat_max_zero (n : Int) : (max 0 n).toNat = n.toNat := by omega

theorem chargersPower_eq (s : State) : s.chargersPower =
    ((allBays.filter fun b => (s.bay b).link = .online).map fun b => (s.bay b).lastPower).sum := by
  unfold State.chargersPower
  induction allBays with
  | nil => rfl
  | cons b l ih =>
    rw [List.map_cons, List.sum_cons, List.filter_cons, ih]
    by_cases online : (s.bay b).link = .online <;> simp [online]

theorem exec_measurementSetAtIvm {s : State} {m : MeasurementSet} {rest : List MeasurementSet}
    (waiting : s.ivm.inbox = m :: rest) :
    exec .measurementSetAtIvm s =
      .next (({ s with ivm := { s.ivm with inbox := rest } } : State).integrate m) := by
  show execMeasurementSetAtIvm s = _
  unfold execMeasurementSetAtIvm
  rw [waiting]

theorem integrate_of_no_end {m : MeasurementSet} (none : m.endTime = none) (s : State) : s.integrate m = s :=
  if_neg (by rw [none]; decide)

theorem integrate_of_current {m : MeasurementSet} {s : State} {i : Interval} (ended : m.endTime ≠ none)
    (current : s.ivm.current = some i) : s.integrate m = { s with
      ivm := { s.ivm with lastCycle := some m.duration, current := some (i.integrate m s.chargersPower) } } := by
  unfold State.integrate
  rw [if_pos (Option.isSome_iff_ne_none.mpr ended), current]
  rfl

theorem interval_integrate_eq {m : MeasurementSet} {i : Interval} (counts : i.cycles + 1 < 2 ^ 32)
    (losses : i.lostCycles + 1 < 2 ^ 32) (cm : Nat) : i.integrate m cm = { i with
      acc :=
        { imported := i.acc.imported + (max 0 m.grid).toNat * m.duration
          exported := i.acc.exported + (max 0 (-m.grid)).toNat * m.duration
          solar := i.acc.solar + m.solar * m.duration
          discharge := i.acc.discharge + (max 0 m.battery).toNat * m.duration
          charge := i.acc.charge + (max 0 (-m.battery)).toNat * m.duration
          chargers := i.acc.chargers + cm * m.duration }
      peak := max i.peak (max 0 m.grid).toNat
      cycles := i.cycles + 1
      lostCycles := if m.meterLost then i.lostCycles + 1 else i.lostCycles
      meterLost := i.meterLost || m.meterLost } := by
  unfold Interval.integrate
  rw [fit32_of_lt counts, fit32_of_lt losses]
  simp only [toNat_max_zero]
  rfl

/-- Settles O53: a set with an end time is integrated, and only the oldest record is acknowledged. -/
theorem measurementSetsAreIntegrated : Obligations.MeasurementSetsAreIntegrated := by
  refine ⟨fun s none => ?_, fun s m rest waiting => ⟨fun no_end => ?_, fun i cm ended current counts losses isCm => ?_⟩,
    fun p e n s taken => ?_⟩
  · show execMeasurementSetAtIvm s = _
    unfold execMeasurementSetAtIvm
    rw [none]
  · rw [exec_measurementSetAtIvm waiting, integrate_of_no_end no_end]
  · have power : ({ s with ivm := { s.ivm with inbox := rest } } : State).chargersPower = cm := by
      rw [isCm, ← chargersPower_eq]
      rfl
    rw [exec_measurementSetAtIvm waiting,
      integrate_of_current (s := { s with ivm := { s.ivm with inbox := rest } }) ended current, power,
        interval_integrate_eq counts losses]
  · rw [show exec (.intervalAck p n) s = .next ((intervalAck n s).send p) from serve_taken taken _]
    unfold intervalAck
    refine ⟨fun empty => ?_, fun oldest rest held => ⟨fun named => ?_, fun other => ?_⟩⟩
    · rw [empty]
    · rw [held]
      dsimp only
      rw [if_neg (not_not.mpr named)]
      rfl
    · rw [held]
      dsimp only
      rw [if_pos other]

/-! ## Closing -/

section Close

variable (i : Interval) (stop : SiteTime) (changed : Bool) (s : State)

/-- The record of a close, with the number it takes when the pending list has room. -/
def State.closedRecord : IntervalRecord :=
  { i.close s.ivm.carries stop changed with number := s.ivm.nextNumber }

/-- The carries a close leaves. -/
def State.closedCarries : Six := (i.acc.add s.ivm.carries).map (· % whMJ)

/-- No mJ is lost between the record and the carries (R168). -/
theorem closedRecord_conserves {q : Six → Nat} (mem : q ∈ sixQuantities) :
    3600000 * q (s.closedRecord i stop changed).wh + q (s.closedCarries i) = q i.acc + q s.ivm.carries ∧
      q (s.closedCarries i) < 3600000 := by
  have sum : q (i.acc.add s.ivm.carries) = q i.acc + q s.ivm.carries := quantity_zip mem ..
  have wh : q (s.closedRecord i stop changed).wh = (q i.acc + q s.ivm.carries) / 3600000 := by
    show q ((i.acc.add s.ivm.carries).map (· / whMJ)) = _
    rw [quantity_map mem, sum]
    rfl
  have carries : q (s.closedCarries i) = (q i.acc + q s.ivm.carries) % 3600000 := by
    unfold State.closedCarries
    rw [quantity_map mem, sum]
    rfl
  rw [wh, carries]
  omega

variable {i stop changed s}

theorem placeRecord_of_room {r : IntervalRecord} {u : State} (room : u.ivm.pendingRecords.length ≤ 1) :
    u.placeRecord r = u.joinRecord r := by
  unfold State.placeRecord
  match held : u.ivm.pendingRecords with
  | [] => rfl
  | [_] => rfl
  | _ :: _ :: rest =>
    rw [held, List.length_cons, List.length_cons] at room
    omega

theorem full_of_no_room {u : State} (full : ¬ u.ivm.pendingRecords.length ≤ 1) :
    ∃ a b l, u.ivm.pendingRecords = a :: b :: l := by
  match held : u.ivm.pendingRecords with
  | [] => exact absurd (by rw [held]; decide) full
  | [_] => exact absurd (by rw [held]; simp) full
  | a :: b :: l => exact ⟨a, b, l, rfl⟩

theorem placeRecord_of_full {r first second : IntervalRecord} {u : State} {rest : List IntervalRecord}
    (full : u.ivm.pendingRecords = first :: second :: rest) :
    u.placeRecord r = u.setPendingRecords (first :: second.merge r :: rest) := by
  unfold State.placeRecord
  rw [full]

theorem closeInterval_of_room (room : s.ivm.pendingRecords.length ≤ 1) : s.closeInterval i stop changed = { s with
    ivm := { s.ivm with
      carries := s.closedCarries i
      pendingRecords := s.ivm.pendingRecords ++ [s.closedRecord i stop changed]
      nextNumber := nextIntervalNumber s.ivm.nextNumber }
    mpt := (s.notify (.interval (s.closedRecord i stop changed))).mpt } := by
  let closed : State := { s with ivm := { s.ivm with carries := s.closedCarries i } }
  let joined : State := { s with
    ivm := { s.ivm with
      carries := s.closedCarries i
      pendingRecords := s.ivm.pendingRecords ++ [s.closedRecord i stop changed]
      nextNumber := nextIntervalNumber s.ivm.nextNumber } }
  have told : (joined.notify (.interval (s.closedRecord i stop changed))).mpt =
      (s.notify (.interval (s.closedRecord i stop changed))).mpt :=
    notify_mpt_congr (by rfl) (by rfl) (by rfl) _
  have placed := placeRecord_of_room (r := i.close s.ivm.carries stop changed) (u := closed) room
  show closed.placeRecord (i.close s.ivm.carries stop changed) = _
  rw [placed]
  show joined.notify (.interval (s.closedRecord i stop changed)) = _
  rw [notify_frame, told]

theorem closeInterval_of_full {first second : IntervalRecord} {rest : List IntervalRecord}
    (full : s.ivm.pendingRecords = first :: second :: rest) : s.closeInterval i stop changed = { s with
    ivm := { s.ivm with
      carries := s.closedCarries i
      pendingRecords := first :: second.merge (i.close s.ivm.carries stop changed) :: rest } } :=
  placeRecord_of_full (u := { s with ivm := { s.ivm with carries := s.closedCarries i } }) full

variable (i stop changed s) in
/-- What a close can change. -/
theorem closeInterval_whole : ∃ carries records next ports, s.closeInterval i stop changed = { s with
    ivm := { s.ivm with carries := carries, pendingRecords := records, nextNumber := next }
    mpt := ports } := by
  by_cases room : s.ivm.pendingRecords.length ≤ 1
  · exact ⟨_, _, _, _, closeInterval_of_room room⟩
  · obtain ⟨first, second, rest, full⟩ := full_of_no_room room
    exact ⟨_, _, _, _, closeInterval_of_full full⟩

/-- A close is one into the records that its list, carries, next number and notices show (R168–R171). -/
theorem closedInto_of {t : State} (carries : t.ivm.carries = (s.closeInterval i stop changed).ivm.carries)
    (records : t.ivm.pendingRecords = (s.closeInterval i stop changed).ivm.pendingRecords)
    (next : t.ivm.nextNumber = (s.closeInterval i stop changed).ivm.nextNumber)
    (ports : t.mpt = (s.closeInterval i stop changed).mpt) : s.ClosedInto i stop changed t := by
  have isCarries : t.ivm.carries = s.closedCarries i := by
    rw [carries]
    by_cases room : s.ivm.pendingRecords.length ≤ 1
    · rw [closeInterval_of_room room]
    · obtain ⟨first, second, rest, full⟩ := full_of_no_room room
      rw [closeInterval_of_full full]
  refine ⟨s.closedRecord i stop changed, fun q mem => ?_, rfl, fun room => ?_, fun first second full => ?_⟩
  · rw [isCarries]
    exact closedRecord_conserves i stop changed s mem
  · rw [records, next, ports, closeInterval_of_room room]
    exact ⟨rfl, rfl, rfl, rfl⟩
  · rw [records, next, ports, closeInterval_of_full full]
    refine ⟨_, rfl, rfl, rfl, fun q mem fits => ?_, fun fits => fit32_of_lt fits, fun fits => fit32_of_lt fits, rfl⟩
    show q (second.wh.zip (fun a b => fit64 (a + b)) _) = _
    rw [quantity_zip mem]
    exact fit64_of_lt fits

theorem placedNumber_of_room {u : State} (room : u.ivm.pendingRecords.length ≤ 1) :
    u.placedNumber = u.ivm.nextNumber := by
  unfold State.placedNumber
  match held : u.ivm.pendingRecords with
  | [] => rfl
  | [_] => rfl
  | _ :: _ :: rest =>
    rw [held, List.length_cons, List.length_cons] at room
    omega

end Close

theorem timeOperand_of_gt {day : Word16} {ms : Word32} (above : 86399999 < ms.toNat) : timeOperand day ms = none := by
  unfold timeOperand
  rw [below_of_le (by omega)]
  rfl

theorem timeOperand_of_time {day : Word16} {ms : Word32} {t : SiteTime} (isDay : t.day.val = day.toNat)
    (isMs : t.ms.val = ms.toNat) : timeOperand day ms = some t := by
  unfold timeOperand
  rw [below_of_eq_val isMs.symm]
  refine congrArg some ?_
  obtain ⟨d, m⟩ := t
  exact congrArg (SiteTime.mk · m) (Fin.ext isDay.symm)

/-- Settles O54: a close conserves every mJ, and what begins begins with nothing in it. -/
theorem intervalsCloseWithoutLoss : Obligations.IntervalsCloseWithoutLoss := by
  rintro s length rfl
  refine ⟨fun i now current set => ?_, fun p e day ms taken => ?_⟩
  · have boundary : exec .boundaryClose s = if now.reaches i.stop then
        .next ((s.closeInterval i i.stop false).beginInterval i.stop false) else .next s := by
      show execBoundaryClose s = _
      unfold execBoundaryClose
      rw [current, set]
    obtain ⟨c, l, n, m, closed⟩ := closeInterval_whole i i.stop false s
    refine ⟨fun early => ?_, fun reached => ⟨(s.closeInterval i i.stop false).beginInterval i.stop false, ?_,
      closedInto_of rfl rfl rfl rfl, by rw [closed]; rfl, by rw [closed]; rfl⟩⟩
    · rw [boundary, early]
      rfl
    · rw [boundary, reached]
      rfl
  · rw [show exec (.setClock p day ms) s = .next ((setClock day ms s).send p) from serve_taken taken _]
    unfold setClock
    refine ⟨fun above => by rw [timeOperand_of_gt above], fun new first isDay isMs isFirst => ?_⟩
    rw [timeOperand_of_time isDay isMs]
    refine ⟨fun unset => ?_, fun i now current set => ?_⟩
    · rw [unset, isFirst]
      rfl
    · refine ⟨(s.closeInterval i now true).startClock new, s.placedNumber, by rw [set, current], closedInto_of rfl rfl
        rfl rfl, ?_, placedNumber_of_room, fun a b full => ?_⟩
      · obtain ⟨c, l, n, m, closed⟩ := closeInterval_whole i now true s
        rw [closed, isFirst]
        rfl
      · unfold State.placedNumber
        rw [full]

end Sys2Proof.Machine
end

section
/-! PROOFS: the settings table, saving, and the three resets (R192–R198). -/

namespace Sys2Proof.Machine

/-! ## The table of settings -/

/-- The settings of the site that take a value at its nearest end, each with its id and its range (R192, R193). -/
def clampedRows : List (Nat × SettingId × Nat × Nat) :=
  [(0x01, .sweepPeriod, 200, 2000), (0x02, .silentThreshold, 1, 15), (0x40, .periodsPerCycle, 4, 40),
    (0x42, .windowStart, 0, 39), (0x43, .windowStop, 0, 39), (0x44, .holdCycles, 1, 10),
    (0x50, .importLimit, 0, 2000000), (0x51, .margin, 0, 50000), (0x52, .reserveFloor, 0, 1000),
    (0x53, .chargeStop, 0, 1000), (0x55, .probeStep, 0, 20000), (0x56, .fallbackPool, 0, 2000000),
    (0x58, .shedHold, 0, 60), (0x59, .restoreMargin, 0, 20000), (0x5A, .shedStackDepth, 1, 16),
    (0x60, .authorisationTimeout, 1, 60), (0x61, .resumeWindow, 10, 900), (0x62, .transferTimeout, 30, 1800),
    (0x63, .tokenFreeTransfer, 0, 1), (0x71, .demandTarget, 0, 2000000), (0x78, .ceilingA, 0, 2),
    (0x79, .ceilingB, 0, 2)]

theorem clampNat_eq {low high : Nat} (range : low ≤ high) (x : Nat) :
    clampNat low high x = if x < low then low else if high < x then high else x := by
  unfold clampNat
  split
  · omega
  · split <;> omega

theorem min_eq_clampNat (x high : Nat) : min x high = clampNat 0 high x := by
  unfold clampNat
  omega

theorem settingOf_clampedRows : ∀ row ∈ clampedRows, settingOf (BitVec.ofNat 16 row.1) = some row.2.1 := by decide

theorem taken_clampedRows (x : Nat) :
    ∀ row ∈ clampedRows, row.2.1.taken x = some (clampNat row.2.2.1 row.2.2.2 x) ∧ row.2.2.1 ≤ row.2.2.2 := by
  simp [clampedRows, SettingId.taken, min_eq_clampNat]

theorem settingOf_enabled (b : BayId) : settingOf (BitVec.ofNat 16 (0x10 + b.val)) = some (.enabled b) := by
  revert b; decide

theorem settingOf_phases (b : BayId) : settingOf (BitVec.ofNat 16 (0x20 + b.val)) = some (.phases b) := by
  revert b; decide

theorem settingOf_cableRating (b : BayId) : settingOf (BitVec.ofNat 16 (0x30 + b.val)) = some (.cableRating b) := by
  revert b; decide

theorem settingOf_converterRating (k : Fin 8) :
    settingOf (BitVec.ofNat 16 (0x48 + k.val)) = some (.converterRating k) := by
  revert k; decide

/-- The ids of the settings that are one value for the site (R192). -/
def siteIds : List Nat :=
  [0x01, 0x02, 0x40, 0x41, 0x42, 0x43, 0x44, 0x50, 0x51, 0x52, 0x53, 0x54, 0x55, 0x56, 0x58, 0x59, 0x5A, 0x5B, 0x60,
    0x61, 0x62, 0x63, 0x68, 0x70, 0x71, 0x78, 0x79, 0x7A, 0x7B]

theorem singleSetting_eq_none_iff (n : Nat) : singleSetting n = none ↔ n ∉ siteIds := by
  unfold singleSetting siteIds
  split <;> simp_all

theorem settingOf_eq_none_iff (id : Word16) : settingOf id = none ↔
    ¬ (0x10 ≤ id.toNat ∧ id.toNat ≤ 0x3F ∨ 0x48 ≤ id.toNat ∧ id.toNat ≤ 0x4F ∨ id.toNat ∈ siteIds) := by
  unfold settingOf
  generalize id.toNat = n
  have ranges : n ∈ siteIds → ¬ (0x10 ≤ n ∧ n ≤ 0x3F) ∧ ¬ (0x48 ≤ n ∧ n ≤ 0x4F) := by
    revert n
    unfold siteIds
    decide
  split
  · rw [Option.map_eq_none_iff, below_eq_none_iff]
    omega
  · split
    · rw [Option.map_eq_none_iff, below_eq_none_iff]
      omega
    · split
      · rw [Option.map_eq_none_iff, below_eq_none_iff]
        omega
      · split
        · rw [Option.map_eq_none_iff, below_eq_none_iff]
          omega
        · rw [singleSetting_eq_none_iff]
          constructor
          · rintro out (low | high | mem)
            · omega
            · omega
            · exact out mem
          · exact fun none mem => none (.inr (.inr mem))

/-! ## Working values -/

/-- A value taken for a setting is taken as it is. -/
theorem taken_taken {x v : Nat} {id : SettingId} (taken : id.taken x = some v) : id.taken v = some v := by
  cases id
  case exportLimit =>
    have value : (if x = 0xFFFFFFFF then x else clampNat 0 2000000 x) = v := Option.some.inj taken
    show some (if v = 0xFFFFFFFF then v else clampNat 0 2000000 v) = some v
    unfold clampNat at *
    split at value <;> split <;> congr 1 <;> omega
  case overflowPolicy | receiptPort | authorisationPort =>
    have value : x ≤ 1 ∧ x = v := by simpa [SettingId.taken] using taken
    obtain ⟨choice, rfl⟩ := value
    exact taken
  case phases =>
    have value : (if x ≤ 2 then 1 else 3) = v := Option.some.inj taken
    split at value <;> subst value <;> rfl
  case intervalLength =>
    have value : (if 1800 ≤ x then 1800 else if 900 ≤ x then 900 else 300) = v := Option.some.inj taken
    split at value
    · subst value; rfl
    · split at value <;> subst value <;> rfl
  all_goals
    simp only [SettingId.taken, clampNat, Option.some.injEq] at taken ⊢
    omega

/-- A value taken for a setting and written to it is its working value. -/
theorem value_write_self {x v : Nat} {id : SettingId} (taken : id.taken x = some v) (t : Settings) :
    id.value (id.write v t) = v := by
  have bounded := taken_taken taken
  cases id
  case enabled b =>
    have bit : v ≤ 1 := by simpa [SettingId.taken] using bounded
    obtain rfl | rfl := Nat.le_one_iff_eq_zero_or_eq_one.mp bit <;> simp [SettingId.value, SettingId.write]
  case tokenFreeTransfer =>
    have bit : v ≤ 1 := by simpa [SettingId.taken] using bounded
    obtain rfl | rfl := Nat.le_one_iff_eq_zero_or_eq_one.mp bit <;> rfl
  case overflowPolicy | receiptPort | authorisationPort =>
    have bit : v ≤ 1 := by simpa [SettingId.taken] using bounded
    obtain rfl | rfl := Nat.le_one_iff_eq_zero_or_eq_one.mp bit <;> rfl
  case exportLimit =>
    show (if v = 0xFFFFFFFF then none else some v).getD 0xFFFFFFFF = v
    split
    · exact Eq.symm (by assumption)
    · rfl
  case protectedPlans =>
    have fits : v % 65536 = v := Option.some.inj bounded
    show (BitVec.ofNat 16 v).toNat = v
    rw [BitVec.toNat_ofNat]
    exact fits
  case phases | cableRating | converterRating => exact put_self ..
  all_goals rfl

/-- A value written to one setting leaves every other. -/
theorem value_write_of_ne (v : Nat) (t : Settings) {id other : SettingId} (ne : other ≠ id) :
    other.value (id.write v t) = other.value t := by
  cases id
  case enabled b =>
    cases other
    case enabled c => exact congrArg Bool.toNat (put_ne _ _ _ _ fun same => ne (congrArg _ same))
    all_goals rfl
  case phases b =>
    cases other
    case phases c => exact put_ne _ _ _ _ fun same => ne (congrArg _ same)
    all_goals rfl
  case cableRating b =>
    cases other
    case cableRating c => exact put_ne _ _ _ _ fun same => ne (congrArg _ same)
    all_goals rfl
  case converterRating b =>
    cases other
    case converterRating c => exact put_ne _ _ _ _ fun same => ne (congrArg _ same)
    all_goals rfl
  all_goals
    cases other <;> simp only [ne_eq, reduceCtorEq, not_true_eq_false, not_false_eq_true] at ne <;> rfl

/-! ## SET_SETTING -/

theorem shutsOut_iff (t : Settings) (v : Nat) (id : SettingId) : id.shutsOut t v = true ↔
    id = .ceilingA ∧ 0 < v ∧ 0 < t.ceilingB ∨ id = .ceilingB ∧ 0 < v ∧ 0 < t.ceilingA := by
  cases id <;> simp [SettingId.shutsOut]

theorem saving_eq (s : State) : s.saving = (s.sst.save != .idle) := by
  unfold State.saving
  cases s.sst.save with
  | idle => rfl
  | saving copy p => exact (bne_iff_ne.mpr (by simp)).symm

section SetSetting

variable {id : Word16} {x : Word32} {s : State} {setting : SettingId}

theorem setSetting_of_unknown (unknown : settingOf id = none) : setSetting id x s = .refuse .badArg s := by
  unfold setSetting
  rw [unknown]

theorem setSetting_of_refused (named : settingOf id = some setting) (refused : setting.taken x.toNat = none) :
    setSetting id x s = .refuse .badArg s := by
  unfold setSetting
  rw [named]
  dsimp only
  rw [refused]

theorem setSetting_of_taken {v : Nat} (named : settingOf id = some setting) (taken : setting.taken x.toNat = some v) :
    setSetting id x s =
      if setting.shutsOut s.settings v then .refuse .denied s
      else
        ⟨if v = x.toNat then .ok else .clamped, .setting v s.saving s.sst.image.valid,
          s.setWorking (setting.write v s.settings)⟩ := by
  unfold setSetting
  rw [named]
  dsimp only
  rw [taken]

end SetSetting

/-- Settles O55: the table gives each id its setting and range, and a value is written to one setting alone. -/
theorem setSettingTakesTheValue : Obligations.SetSettingTakesTheValue := by
  refine ⟨fun n low high setting id x isId _ row => ?_, fun x _ => ⟨fun b => ⟨settingOf_phases b, rfl⟩, by decide,
    fun taken isTaken => ?_, by decide, ?_, by decide, rfl, by decide, ?_, ?_⟩, settingOf_eq_none_iff,
    fun p e id x s taken => ?_⟩
  · have isNumber : id = BitVec.ofNat 16 n := by rw [← isId, BitVec.ofNat_toNat, BitVec.setWidth_eq]
    subst isNumber
    obtain row | ⟨b, rfl, rfl, rfl, rfl⟩ | ⟨b, rfl, rfl, rfl, rfl⟩ | ⟨k, rfl, rfl, rfl, rfl⟩ := row
    · obtain ⟨taken, range⟩ := taken_clampedRows x _ row
      exact ⟨settingOf_clampedRows _ row, taken.trans (congrArg some (clampNat_eq range x))⟩
    · exact ⟨settingOf_enabled b, congrArg some ((min_eq_clampNat x 1).trans (clampNat_eq (by decide) x))⟩
    · exact ⟨settingOf_cableRating b, congrArg some (clampNat_eq (by decide) x)⟩
    · exact ⟨settingOf_converterRating k, congrArg some (clampNat_eq (by decide) x)⟩
  · have value : clampNat 50 500 (x / 50 * 50) = taken := Option.some.inj isTaken
    unfold clampNat at value
    omega
  · show some (if x = 0xFFFFFFFF then x else clampNat 0 2000000 x) = _
    rw [clampNat_eq (by decide), if_neg (Nat.not_lt_zero x)]
    by_cases none : x = 0xFFFFFFFF
    · rw [if_pos none, if_neg fun both => both.2 none]
    · rw [if_neg none]
      exact congrArg some (if_congr (and_iff_left none).symm rfl rfl)
  · show some (if 1800 ≤ x then 1800 else if 900 ≤ x then 900 else 300) = _
    congr 1
    by_cases short : x < 900
    · rw [if_neg (by omega), if_neg (by omega), if_pos short]
    · by_cases mid : x < 1800
      · rw [if_neg (by omega), if_pos (by omega), if_neg short, if_pos mid]
      · rw [if_pos (by omega), if_neg short, if_neg mid]
  · have rows : ∀ choice ∈ [((0x5B : Word16), SettingId.overflowPolicy), (0x7A, .receiptPort),
        (0x7B, .authorisationPort)], settingOf choice.1 = some choice.2 := by decide
    have takes : ∀ choice ∈ [((0x5B : Word16), SettingId.overflowPolicy), (0x7A, .receiptPort),
        (0x7B, .authorisationPort)], choice.2.taken x = if x ≤ 1 then some x else none := by
      simp [SettingId.taken]
    exact fun choice mem => ⟨rows choice mem, takes choice mem⟩
  · rw [show exec (.setSetting p id x) s = .next ((setSetting id x s).send p) from serve_taken taken _]
    refine ⟨fun unknown => by rw [setSetting_of_unknown unknown], fun setting named =>
      ⟨fun refused => by rw [setSetting_of_refused named refused], fun v isTaken =>
        ⟨fun shut => ?_, fun allowed => ?_⟩⟩⟩
    · rw [setSetting_of_taken named isTaken, if_pos ((shutsOut_iff ..).mpr shut)]
    · refine ⟨setting.write v s.settings, ?_, value_write_self isTaken s.settings, taken_taken isTaken,
        fun other ne => value_write_of_ne v s.settings ne⟩
      rw [setSetting_of_taken named isTaken, if_neg ((shutsOut_iff ..).not.mpr allowed), saving_eq]
      rfl

/-! ## What a start-up loads -/

theorem mem_allSettings (id : SettingId) : id ∈ allSettings := by
  unfold allSettings
  simp only [List.mem_flatten, List.mem_cons, List.not_mem_nil, or_false, exists_eq_or_imp, exists_eq_left]
  cases id
  case enabled b => exact .inr (.inl (List.mem_map_of_mem (mem_allBays b)))
  case phases b => exact .inr (.inr (.inl (List.mem_map_of_mem (mem_allBays b))))
  case cableRating b => exact .inr (.inr (.inr (.inl (List.mem_map_of_mem (mem_allBays b)))))
  case converterRating k =>
    exact .inr (.inr (.inr (.inr (List.mem_map_of_mem (by revert k; decide)))))
  all_goals exact .inl (by decide)

/-- A setting restored takes its value, and every other stands (R196). -/
theorem value_restore {t : Settings} {id : SettingId} {v : Nat} (taken : id.taken (id.value t) = some v)
    (other : SettingId) : id.value (other.restore t) = if other = id then v else id.value t := by
  unfold SettingId.restore
  by_cases same : other = id
  · subst same
    rw [if_pos rfl, taken]
    exact value_write_self taken t
  · rw [if_neg same, value_write_of_ne _ _ (Ne.symm same)]

/-- Restoring a run of settings, one of them this one: it has the value taken, and is taken as it is from then on. -/
theorem value_restoreAll {id : SettingId} {v : Nat} (l : List SettingId) {t : Settings}
    (taken : id.taken (id.value t) = some v) (mem : id ∈ l ∨ id.value t = v) :
    id.value (l.foldl (fun t other => other.restore t) t) = v := by
  induction l generalizing t with
  | nil => simpa using mem
  | cons other l ih =>
    have value := value_restore taken other
    by_cases same : other = id
    · rw [if_pos same] at value
      exact ih (by rw [value]; exact taken_taken taken) (.inr value)
    · rw [if_neg same] at value
      refine ih (by rw [value]; exact taken) (mem.imp (fun mem => ?_) value.trans)
      exact (List.mem_cons.mp mem).resolve_left (Ne.symm same)

theorem value_restored {t : Settings} {id : SettingId} {v : Nat} (taken : id.taken (id.value t) = some v) :
    id.value t.restored = v := value_restoreAll allSettings taken (.inl (mem_allSettings id))

/-! ## Resets and saves -/

/-- Each reset leaves the part at the end of start-up with its cause (R195, R197). -/
theorem exec_reset {s : State} {cause : ResetCause} {c : Instr} {p : Port} {e : Nat}
    (reset : c = .powerOn ∧ cause = .power ∨ c = .resetPin ∧ cause = .pin ∨
      c = .restart p ∧ cause = .restart ∧ s.takenLevel p (.restart p) = some e ∧ s.sst.save = .idle) :
    exec c s = .next (startUp cause s.sst.image s.pending) := by
  obtain ⟨rfl, rfl⟩ | ⟨rfl, rfl⟩ | ⟨rfl, rfl, taken, idle⟩ := reset
  · rfl
  · rfl
  · show execRestart p s = _
    unfold execRestart
    rw [taken]
    dsimp only
    rw [if_neg (by rw [saving_eq, idle]; decide)]

theorem modPort_congr {s : State} {p : Port} {f g : PortContext → PortContext} (same : f (s.port p) = g (s.port p)) :
    s.modPort p f = s.modPort p g := by
  cases p
  · show { s with mpt := { s.mpt with portA := f s.mpt.portA } } =
      { s with mpt := { s.mpt with portA := g s.mpt.portA } }
    rw [show f s.mpt.portA = g s.mpt.portA from same]
  · show { s with mpt := { s.mpt with portB := f s.mpt.portB } } =
      { s with mpt := { s.mpt with portB := g s.mpt.portB } }
    rw [show f s.mpt.portB = g s.mpt.portB from same]

theorem bay_startUp (cause : ResetCause) (image : StoredImage) (waiting : List Instr) (b : BayId) :
    (startUp cause image waiting).bay b = Bay.fresh (if image.load.enabled[b.val] then .scheduledWait else
      .absent) := by
  rw [startUp_eq]
  exact Vector.getElem_ofFn ..

theorem activeMasks_startUp (cause : ResetCause) (image : StoredImage) (waiting : List Instr) (b : BayId) :
    (startUp cause image waiting).activeMasks b =
      if image.load.enabled[b.val] then ⟨1#16 <<< b.val, 3#32 <<< (2 * b.val)⟩ else ⟨0, 0⟩ := by
  have masks : (startUp cause image waiting).activeMasks b = expandMasks image.load.enabled[b.val] b ⟨0, 0⟩ := by
    rw [startUp_eq]
    exact Vector.getElem_ofFn ..
  rw [masks, expandMasks_eq]
  cases image.load.enabled[b.val] <;> rfl

theorem image_load_of_invalid {image : StoredImage} (invalid : image.valid = false) :
    image.load = Settings.defaults := if_neg (by rw [invalid]; decide)

theorem image_load_of_valid {image : StoredImage} (valid : image.valid = true) :
    image.load = image.contents.restored := if_pos valid

/-- Settles O56: start-up builds the part of the stored image alone, and a save holds the copy it took. -/
theorem resetsStartThePart : Obligations.ResetsStartThePart := by
  refine ⟨fun s cause c p e reset => ⟨startUp cause s.sst.image s.pending, exec_reset reset, rfl, rfl, rfl,
    fun invalid => image_load_of_invalid invalid, fun valid id v taken => ?_,
    fun b => ⟨bay_startUp .., activeMasks_startUp .., ?_⟩, rfl, rfl, rfl, rfl, rfl, fun b => ?_, fun k => ?_,
      rfl, rfl, rfl,
    rfl, rfl, rfl, rfl, rfl, rfl, rfl, fun r => ?_, rfl, rfl, rfl, fun b => ⟨?_, ?_⟩, fun q => ?_,
      fun pg => ?_, rfl, rfl,
    rfl, rfl, rfl⟩, fun s p e copy q taken saving => ?_, fun p s =>
      ⟨fun e taken => ⟨fun copy q saving => ?_, fun idle => ?_⟩,
    fun copy saving awaits => ?_, fun idle => ?_⟩⟩
  · show id.value s.sst.image.load = v
    rw [image_load_of_valid valid]
    exact value_restored taken
  · exact Vector.getElem_replicate ..
  · exact Vector.getElem_replicate ..
  · exact Vector.getElem_replicate ..
  · exact Vector.getElem_replicate ..
  · exact Vector.getElem_replicate ..
  · exact Vector.getElem_replicate ..
  · exact Vector.getElem_replicate ..
  · exact Vector.getElem_replicate ..
  · show execRestart p s = _
    unfold execRestart
    rw [taken]
    dsimp only
    rw [if_pos (by rw [saving_eq, saving]; exact bne_iff_ne.mpr (by simp))]
  · show execSaveSettings p s = _
    unfold execSaveSettings
    rw [taken]
    dsimp only
    rw [if_pos (by rw [saving_eq, saving]; exact bne_iff_ne.mpr (by simp))]
  · show execSaveSettings p s = _
    unfold execSaveSettings
    rw [taken]
    dsimp only
    rw [if_neg (by rw [saving_eq, idle]; decide)]
    rfl
  · show execSaveComplete s = _
    unfold execSaveComplete
    rw [saving]
    refine congrArg Host.Outcome.next (modPort_congr ?_)
    exact if_pos (by cases p <;> exact awaits)
  · show execSaveComplete s = _
    unfold execSaveComplete
    rw [idle]

end Sys2Proof.Machine
end

section
/-! PROOFS: the message ports: reception, service and transmission (R177–R187). -/

namespace Sys2Proof.Machine

/-! ## One port's context -/

theorem modPort_of_port {s : State} {p : Port} {f : PortContext → PortContext} {c d : PortContext} (here : s.port p = c)
    (value : f c = d) : s.modPort p f = s.modPort p fun _ => d := modPort_congr (by rw [here, value])

theorem modPort_self (s : State) (p : Port) : (s.modPort p fun c => c) = s := by cases p <;> rfl

theorem modPort_of_same {s : State} {p : Port} {f : PortContext → PortContext} {c : PortContext} (here : s.port p = c)
    (same : f c = c) : s.modPort p f = s :=
  (modPort_congr (g := fun c => c) (by rw [here, same])).trans (modPort_self s p)

theorem modPort_modPort (s : State) (p : Port) (f g : PortContext → PortContext) :
    (s.modPort p f).modPort p g = s.modPort p fun c => g (f c) := by cases p <;> rfl

/-! ## Transmission -/

theorem append_of_empty {c : PortContext} (empty : c.transmitQueue = []) (m : Message) :
    c.append m = { c with transmitQueue := [{ m with droppedFlag := c.dropMark }], dropMark := false } := by
  unfold PortContext.append
  rw [empty]

theorem append_of_sending {c : PortContext} (sending : c.transmitQueue ≠ []) (m : Message) :
    c.append m = { c with transmitQueue := c.transmitQueue ++ [m] } := by
  unfold PortContext.append
  split
  next empty => exact absurd empty sending
  next => rfl

theorem notify_eq {s : State} {n : Notice} {p : Port} {message : Message} (route : p = (match n with
      | .authRequest _ _ _ _ => s.settings.authorisationPort
      | .receipt _ _ => s.settings.receiptPort
      | _ => .a))
    (isMessage : message = ⟨0, 0, n.kind, false, .notice s.now n⟩) :
    s.notify n = s.modPort p (·.handNotice message) := by
  have isPort : n.port s.settings = p := by
    rw [route]
    cases n <;> rfl
  unfold State.notify
  rw [isPort, isMessage]

/-- Settles O59: a message's sending begins on an empty queue or when the one before it has been sent. -/
theorem queuesAreSentInOrder : Obligations.QueuesAreSentInOrder := by
  intro s p c here
  have complete : exec (.transmitComplete p) s = .next (s.modPort p (·.completeSending)) := rfl
  refine ⟨fun empty => ?_, fun m one => ?_,
    fun m next rest more => ?_, fun n message route role tag kind body flag => ?_,
    fun q rest code contents m waiting isMessage => ?_⟩
  · rw [complete, modPort_of_same here (by unfold PortContext.completeSending; rw [empty])]
  · rw [complete, modPort_of_port here (d := { c with transmitQueue := [], lastSent := some m })
      (by unfold PortContext.completeSending; rw [one]; rfl)]
  · rw [complete, modPort_of_port here (d := { c with
      transmitQueue := { next with droppedFlag := c.dropMark } :: rest, dropMark := false, lastSent := some m })
      (by unfold PortContext.completeSending; rw [more]; rfl)]
  · have isMessage : message = ⟨0, 0, n.kind, false, .notice s.now n⟩ := by
      rw [← role, ← tag, ← kind, ← body, ← flag]
    have told := notify_eq route isMessage
    refine ⟨fun full => ?_, fun sending room => ?_, fun empty => ?_⟩
    · exact told.trans (modPort_of_port here (if_neg (by omega)))
    · refine told.trans (modPort_of_port here ((if_pos room).trans (append_of_sending ?_ message)))
      rintro empty
      rw [empty] at sending
      exact absurd sending (by decide)
    · exact told.trans (modPort_of_port here ((if_pos (by rw [empty]; decide)).trans (append_of_empty empty message)))
  · have answered : c.answer code contents = { c.append m with receiveQueue := rest, service := .unchecked } := by
      rw [PortContext.answer_cons code contents c q rest waiting, isMessage, waiting, List.length_cons]
      rfl
    have sent : (Answer.mk code contents s).send p =
        s.modPort p fun _ => { c.append m with receiveQueue := rest, service := .unchecked } :=
      modPort_of_port here answered
    refine ⟨fun sending => ?_, fun empty => ?_⟩
    · rw [sent, append_of_sending sending]
    · rw [sent, append_of_empty empty]

/-! ## Service -/

/-- The checks of R181 refuse a request with the first code whose condition holds. -/
theorem check_refused {c : PortContext} {ceiling level : Nat} {q : Request} {code : ResultCode}
    (isLevel : level = max ceiling q.role.toNat)
    (refused : code = .noRoom ∧ 11 ≤ c.transmitQueue.length ∨
      c.transmitQueue.length < 11 ∧
        (code = .badArg ∧ 2 < q.role.toNat ∨
          q.role.toNat ≤ 2 ∧
            (code = .unknownKind ∧ requestKind q.kind = none ∨
              ∃ k, requestKind q.kind = some k ∧
                (code = .denied ∧ (requestRow k).level < level ∨
                  level ≤ (requestRow k).level ∧ code = .badLength ∧
                    (q.body.length < (requestRow k).least ∨ (requestRow k).greatest < q.body.length))))) :
    c.check ceiling q = .refused code := by
  subst isLevel
  unfold PortContext.check effectiveLevel
  obtain ⟨rfl, full⟩ | ⟨room, refused⟩ := refused
  · rw [if_pos full]
  rw [if_neg (by omega)]
  obtain ⟨rfl, above⟩ | ⟨role, refused⟩ := refused
  · rw [if_pos above]
  rw [if_neg (by omega)]
  obtain ⟨rfl, unknown⟩ | ⟨k, known, refused⟩ := refused
  · rw [unknown]
  rw [known]
  dsimp only
  obtain ⟨rfl, above⟩ | ⟨within, rfl, size⟩ := refused
  · rw [if_pos above]
  · rw [if_neg (by omega), if_pos size]

theorem check_handed {c : PortContext} {ceiling level : Nat} {q : Request} {k : RequestKind}
    (isLevel : level = max ceiling q.role.toNat) (room : c.transmitQueue.length < 11) (role : q.role.toNat ≤ 2)
    (known : requestKind q.kind = some k) (within : level ≤ (requestRow k).level)
    (least : (requestRow k).least ≤ q.body.length) (most : q.body.length ≤ (requestRow k).greatest) :
    c.check ceiling q = .handed level := by
  subst isLevel
  unfold PortContext.check effectiveLevel
  rw [if_neg (by omega), if_neg (by omega), known]
  dsimp only
  rw [if_neg (by omega), if_neg (by omega)]

theorem startService_refused {c : PortContext} {ceiling : Nat} {q : Request} {rest : List Request} {code : ResultCode}
    (unchecked : c.service = .unchecked) (waiting : c.receiveQueue = q :: rest) (room : c.transmitQueue.length < 16)
    (refused : c.check ceiling q = .refused code) : c.startService ceiling = c.answer code .nothing := by
  unfold PortContext.startService
  rw [unchecked, waiting]
  dsimp only
  rw [if_neg (by omega), refused]

theorem startService_handed {c : PortContext} {ceiling level : Nat} {q : Request} {rest : List Request}
    (unchecked : c.service = .unchecked) (waiting : c.receiveQueue = q :: rest) (room : c.transmitQueue.length < 16)
    (handed : c.check ceiling q = .handed level) :
    c.startService ceiling = { c with service := .handed level } := by
  unfold PortContext.startService
  rw [unchecked, waiting]
  dsimp only
  rw [if_neg (by omega), handed]

/-- Settles O58: the checks are made in their order on the oldest request. -/
theorem serviceStartChecksInOrder : Obligations.ServiceStartChecksInOrder := by
  intro p s c here
  have start : exec (.serviceStart p) s = .next (s.modPort p (·.startService (s.settings.ceiling p))) := rfl
  refine ⟨fun q rest level unchecked waiting isLevel room => ⟨fun code refused => ?_,
    fun k space role known within least most => ?_⟩, fun idle => ?_⟩
  · have answered : c.startService (s.settings.ceiling p) = c.answer code .nothing :=
      startService_refused unchecked waiting room (check_refused isLevel refused)
    rw [start, modPort_of_port here answered]
    exact congrArg Host.Outcome.next (modPort_of_port here (f := (·.answer code .nothing)) rfl).symm
  · have handed : c.startService (s.settings.ceiling p) = { c with service := .handed level } :=
      startService_handed unchecked waiting room (check_handed isLevel space role known within least most)
    have taken : (s.modPort p fun c => { c with service := .handed level }) =
        s.modPort p fun _ => { c with service := .handed level } := modPort_of_port here rfl
    refine ⟨by rw [start, modPort_of_port here handed, taken], fun i spelt => ?_⟩
    unfold State.takenLevel
    rw [port_modPort_self, here]
    dsimp only
    rw [waiting]
    dsimp only
    rw [if_pos spelt]
  · have same : c.startService (s.settings.ceiling p) = c := by
      unfold PortContext.startService
      split
      next q rest unchecked waiting =>
        obtain empty | busy := idle
        · rw [empty] at waiting
          cases waiting
        · exact absurd unchecked busy
      next => rfl
    rw [start, modPort_of_same here same]

/-! ## Framing -/

theorem framing_short {l1 l0 : Byte} {rest : List Byte} {length n : Nat} (size : l1.toNat * 256 + l0.toNat = length)
    (fits : length ≤ 1152) (short : n < length + 9) : framing ((l1 :: l0 :: rest).take n) = .incomplete := by
  obtain _ | _ | n := n
  · rfl
  · rfl
  · have few : (rest.take n).length < l1.toNat * 256 + l0.toNat + 7 := by
      rw [List.length_take]
      omega
    rw [List.take_succ_cons, List.take_succ_cons]
    unfold framing
    dsimp only
    rw [if_neg (by omega), if_pos few]

theorem framing_whole {l1 l0 role t1 t0 kind flags : Byte} {body crc : List Byte} (size : l1.toNat * 256 + l0.toNat
    = body.length)
    (fits : body.length ≤ 1152) (right : crc = crcBytes (l1 :: l0 :: role :: t1 :: t0 :: kind :: flags :: body)) :
    framing (l1 :: l0 :: role :: t1 :: t0 :: kind :: flags :: (body ++ crc)) =
      .whole ⟨⟨role, word16 t1 t0, kind, body⟩, flags⟩ := by
  have two : crc.length = 2 := by rw [right, crcBytes_length]
  unfold framing
  dsimp only
  have enough : ¬ (role :: t1 :: t0 :: kind :: flags :: (body ++ crc)).length < body.length + 7 := by
    simp only [List.length_cons, List.length_append, two]
    omega
  have covered : (l1 :: l0 :: role :: t1 :: t0 :: kind :: flags :: (body ++ crc)).take (body.length + 7) =
      l1 :: l0 :: role :: t1 :: t0 :: kind :: flags :: body := by simp
  rw [size, if_neg (by omega), if_neg enough, covered, List.drop_left, List.take_left, if_pos right.symm]

theorem framing_damaged {l1 l0 role t1 t0 kind flags : Byte} {body crc : List Byte}
    (size : l1.toNat * 256 + l0.toNat = body.length) (fits : body.length ≤ 1152) (two : crc.length = 2)
    (wrong : crc ≠ crcBytes (l1 :: l0 :: role :: t1 :: t0 :: kind :: flags :: body)) :
    framing (l1 :: l0 :: role :: t1 :: t0 :: kind :: flags :: (body ++ crc)) = .damaged := by
  unfold framing
  dsimp only
  have enough : ¬ (role :: t1 :: t0 :: kind :: flags :: (body ++ crc)).length < body.length + 7 := by
    simp only [List.length_cons, List.length_append, two]
    omega
  have covered : (l1 :: l0 :: role :: t1 :: t0 :: kind :: flags :: (body ++ crc)).take (body.length + 7) =
      l1 :: l0 :: role :: t1 :: t0 :: kind :: flags :: body := by simp
  rw [size, if_neg (by omega), if_neg enough, covered, List.drop_left, if_neg (Ne.symm wrong)]

theorem framing_long {high low : Byte} (long : 1152 < high.toNat * 256 + low.toNat) :
    framing [high, low] = .damaged := if_pos long

theorem size_of_beBytes {n : Nat} (fits : n < 65536) : (BitVec.ofNat 8 (n / 256)).toNat * 256 +
    (BitVec.ofNat 8 n).toNat = n := by
  rw [BitVec.toNat_ofNat, BitVec.toNat_ofNat]
  omega

/-- The bytes of a message after its start byte. -/
theorem envelope_eq (role : Byte) (tag : Word16) (kind flags : Byte) (body : List Byte) :
    ∃ l1 l0 t1 t0, envelope role tag kind flags body = 0xC3#8 :: l1 :: l0 :: role :: t1 :: t0 :: kind :: flags ::
        (body ++ crcBytes (l1 :: l0 :: role :: t1 :: t0 :: kind :: flags :: body)) ∧
      word16 t1 t0 = tag ∧ (body.length ≤ 1152 → l1.toNat * 256 + l0.toNat = body.length) := by
  refine ⟨BitVec.ofNat 8 (body.length / 256), BitVec.ofNat 8 body.length, tag.extractLsb' 8 8, tag.extractLsb' 0 8, ?_,
    word16_bytes tag, fun fits => size_of_beBytes (by omega)⟩
  unfold envelope
  rw [beBytes_two]
  rfl

theorem crcBytes_ne {high low : Byte} {x : List Byte} (wrong : high.toNat * 256 + low.toNat ≠ (crc16 x).toNat) :
    [high, low] ≠ crcBytes x := by
  intro same
  have read := congrArg beNat same
  unfold crcBytes at read
  rw [beNat_beBytes, Nat.mod_eq_of_lt (show _ < 256 ^ 2 from (crc16 x).isLt)] at read
  exact wrong (by simpa [beNat] using read)

theorem covered_take (l1 l0 role t1 t0 kind flags : Byte) (body crc : List Byte) :
    (l1 :: l0 :: role :: t1 :: t0 :: kind :: flags :: (body ++ crc)).take (body.length + 7) =
      l1 :: l0 :: role :: t1 :: t0 :: kind :: flags :: body := by simp

/-! ## Reception -/

theorem examine_one_hunting (b : Byte) :
    examine .hunting [b] = ([], if b = 0xC3#8 then .inMessage [] else .hunting) := by
  change scan 4 .hunting [b] = _
  rw [scan, scan_nil, scan_nil]
  split <;> rfl

/-- A receiver within a message judges the bytes held with the next one. -/
theorem examine_one_inMessage (taken : List Byte) (b : Byte) :
    (framing (taken ++ [b]) = .incomplete → examine (.inMessage taken) [b] = ([], .inMessage (taken ++ [b]))) ∧
    (framing (taken ++ [b]) = .damaged → examine (.inMessage taken) [b] =
      (.discard :: (examine .hunting (taken ++ [b])).1, (examine .hunting (taken ++ [b])).2)) ∧
    ∀ m, framing (taken ++ [b]) = .whole m → examine (.inMessage taken) [b] = ([.message m], .hunting) := by
  obtain ⟨fuel, isFuel⟩ : ∃ fuel, (taken.length + 2) * (taken.length + 2) = fuel + 1 := ⟨_, rfl⟩
  have enough : scanBound (.inMessage taken) [b] ≤ fuel + 1 := by
    simp only [scanBound, List.length_cons, List.length_nil]
    nlinarith
  have again : scan fuel .hunting (taken ++ [b]) = examine .hunting (taken ++ [b]) :=
    scan_fuel _ _ _ _ (scanBound_byte enough).2.1 (scanBound_examine .hunting _)
  have judged : examine (.inMessage taken) [b] = scan (fuel + 1) (.inMessage taken) [b] :=
    congrArg (scan · (.inMessage taken) [b]) isFuel
  refine ⟨fun is => ?_, fun is => ?_, fun m is => ?_⟩
  · rw [judged, scan, is, scan_nil]
  · rw [judged, scan, is, again]
  · rw [judged, scan, is]
    dsimp only
    rw [scan_nil]

namespace PortContext

theorem take_start {c : PortContext} (hunting : c.receiver = .hunting) (b : Byte) :
    c.take [b] = { c with receiver := if b = 0xC3#8 then .inMessage [] else .hunting } := by
  rw [take_eq, hunting, examine_one_hunting]
  rfl

theorem with_receiver {c : PortContext} {r : Receiver} (same : c.receiver = r) : { c with receiver := r } = c := by
  rw [← same]

/-- Bytes without a start byte leave a hunting receiver as it is (R178). -/
theorem take_noise {c : PortContext} (hunting : c.receiver = .hunting) {noise : List Byte}
    (clean : (0xC3 : Byte) ∉ noise) :
    c.take noise = c := by
  induction noise with
  | nil => rw [take_eq, hunting]; exact with_receiver hunting
  | cons b rest ih =>
    rw [List.mem_cons, not_or] at clean
    have passed : c.take [b] = c := by rw [take_start hunting, if_neg
      (show b ≠ 0xC3#8 from Ne.symm clean.1), with_receiver hunting]
    rw [← List.singleton_append, ← take_append, passed, ih clean.2]

/-- A receiver within a message holds the bytes that do not complete it (R178). -/
theorem take_incomplete (x : List Byte) : ∀ {c : PortContext} {taken : List Byte}, c.receiver = .inMessage taken →
    (∀ n < x.length, framing (taken ++ x.take (n + 1)) = .incomplete) →
    c.take x = { c with receiver := .inMessage (taken ++ x) } := by
  induction x with
  | nil =>
    intro c taken inside _
    rw [take_eq, inside, List.append_nil]
    rfl
  | cons b rest ih =>
    intro c taken inside incomplete
    have held : c.take [b] = { c with receiver := .inMessage (taken ++ [b]) } := by
      rw [take_eq, inside, (examine_one_inMessage taken b).1 (incomplete 0 (by simp))]
      rfl
    rw [← List.singleton_append, ← take_append, held, ih rfl fun n short => ?_]
    · rw [List.append_assoc]
    · rw [List.append_assoc]
      exact incomplete (n + 1) (by simpa using short)

/-- The bytes of a message begun and not ended are held (R178). -/
theorem take_begun {c : PortContext} (hunting : c.receiver = .hunting) {x : List Byte}
    (incomplete : ∀ n ≤ x.length, framing (x.take n) = .incomplete) :
    c.take (0xC3#8 :: x) = { c with receiver := .inMessage x } := by
  rw [← List.singleton_append, ← take_append, take_start hunting, if_pos rfl,
    take_incomplete x (taken := []) rfl fun n short => incomplete (n + 1) short, List.nil_append]

/-- The last byte of a message is judged with those held (R178). -/
theorem take_last {c : PortContext} (hunting : c.receiver = .hunting) {x : List Byte} {b : Byte}
    (incomplete : ∀ n ≤ x.length, framing ((x ++ [b]).take n) = .incomplete) :
    (∀ m, framing (x ++ [b]) = .whole m → c.take (0xC3#8 :: (x ++ [b])) = c.receive (.message m)) ∧
    (framing (x ++ [b]) = .damaged → c.take (0xC3#8 :: (x ++ [b])) = c.countError.take (x ++ [b])) := by
  have begun : c.take (0xC3#8 :: x) = { c with receiver := .inMessage x } :=
    take_begun hunting fun n within => by
      have := incomplete n within
      rwa [List.take_append_of_le_length within] at this
  have split : c.take (0xC3#8 :: (x ++ [b])) = PortContext.take [b] { c with receiver := .inMessage x } := by
    rw [← List.cons_append, ← take_append, begun]
  constructor
  · intro m isWhole
    rw [split, take_eq, (examine_one_inMessage x b).2.2 m isWhole]
    change { PortContext.receive (.message m) { c with receiver := .inMessage x } with receiver := .hunting } = _
    rw [receive_receiver, ← receive_receiver (.message m) c .hunting, with_receiver hunting]
  · intro isDamaged
    rw [split, take_eq, (examine_one_inMessage x b).2.1 isDamaged, take_eq c.countError,
      show c.countError.receiver = .hunting from hunting, List.foldl_cons, receive_receiver, received_receiver]
    rfl

/-- A message is judged as a whole when its last byte has been taken (R178). -/
theorem take_message {c : PortContext} (hunting : c.receiver = .hunting) {bytes : List Byte} (some : bytes ≠ [])
    (incomplete : ∀ n < bytes.length, framing (bytes.take n) = .incomplete) :
    (∀ m, framing bytes = .whole m → c.take (0xC3#8 :: bytes) = c.receive (.message m)) ∧
    (framing bytes = .damaged → c.take (0xC3#8 :: bytes) = c.countError.take bytes) := by
  rw [← List.dropLast_append_getLast some] at incomplete ⊢
  exact take_last hunting fun n within => incomplete n (by simpa using Nat.lt_succ_of_le within)

theorem take_cut {c : PortContext} (hunting : c.receiver = .hunting) {noise : List Byte} (clean : (0xC3 : Byte) ∉ noise)
    (x : List Byte) : c.take (noise ++ x) = c.take x := by
  rw [← take_append, take_noise hunting clean]

/-- A message of any flags byte, taken by a hunting receiver. -/
theorem take_envelope {c : PortContext} (hunting : c.receiver = .hunting) {role kind flags : Byte} {tag : Word16}
    {body : List Byte} (fits : body.length ≤ 1152) :
    c.take (envelope role tag kind flags body) = c.receive (.message ⟨⟨role, tag, kind, body⟩, flags⟩) := by
  obtain ⟨l1, l0, t1, t0, isEnvelope, isTag, size⟩ := envelope_eq role tag kind flags body
  rw [isEnvelope, ← isTag]
  refine (take_message hunting (by simp) fun n short => ?_).1 _ (framing_whole (size fits) fits rfl)
  exact framing_short (size fits) fits (by
    simp only [List.length_cons, List.length_append, crcBytes_length] at short
    omega)

/-- A message whose CRC is not that of its bytes: the bytes after its start byte are taken again (R178). -/
theorem take_wrong {c : PortContext} (hunting : c.receiver = .hunting) {l1 l0 role t1 t0 kind flags : Byte}
    {body crc : List Byte} (size : l1.toNat * 256 + l0.toNat = body.length) (fits : body.length ≤ 1152)
    (two : crc.length = 2) (wrong : crc ≠ crcBytes (l1 :: l0 :: role :: t1 :: t0 :: kind :: flags :: body)) :
    c.take (0xC3#8 :: l1 :: l0 :: role :: t1 :: t0 :: kind :: flags :: (body ++ crc)) =
      c.countError.take (l1 :: l0 :: role :: t1 :: t0 :: kind :: flags :: (body ++ crc)) := by
  refine (take_message hunting (by simp) fun n short => ?_).2 (framing_damaged size fits two wrong)
  exact framing_short size fits (by
    simp only [List.length_cons, List.length_append, two] at short
    omega)

/-- A message whose last two bytes are not its CRC. -/
theorem take_wrongEnvelope {c : PortContext} (hunting : c.receiver = .hunting) {role kind flags high low : Byte}
    {tag : Word16}
    {body inner : List Byte} (fits : body.length ≤ 1152) (isInner : envelope role tag kind flags body = 0xC3 :: inner)
    (wrong : high.toNat * 256 + low.toNat ≠ (crc16 (inner.take (body.length + 7))).toNat) :
    c.take (0xC3 :: (inner.take (body.length + 7) ++ [high, low])) =
      c.countError.take (inner.take (body.length + 7) ++ [high, low]) := by
  obtain ⟨l1, l0, t1, t0, isEnvelope, -, size⟩ := envelope_eq role tag kind flags body
  obtain ⟨-, rfl⟩ := List.cons.inj (isEnvelope.symm.trans isInner)
  rw [covered_take] at wrong ⊢
  exact take_wrong hunting (size fits) fits rfl (crcBytes_ne wrong)

/-- A message that has begun and not ended. -/
theorem take_begunEnvelope {c : PortContext} (hunting : c.receiver = .hunting) {role kind flags : Byte} {tag : Word16}
    {body inner : List Byte} {n : Nat} (fits : body.length ≤ 1152)
    (isInner : envelope role tag kind flags body = 0xC3 :: inner) (short : n < inner.length) :
    c.take (0xC3 :: inner.take n) = { c with receiver := .inMessage (inner.take n) } := by
  obtain ⟨l1, l0, t1, t0, isEnvelope, -, size⟩ := envelope_eq role tag kind flags body
  obtain ⟨-, rfl⟩ := List.cons.inj (isEnvelope.symm.trans isInner)
  refine take_begun hunting fun k within => ?_
  simp only [List.length_cons, List.length_append, crcBytes_length] at short
  rw [List.length_take] at within
  rw [List.take_take, min_eq_left (by omega)]
  exact framing_short (size fits) fits (by omega)

/-- A length above 1,152 is judged as soon as it stands (R178). -/
theorem take_long {c : PortContext} (hunting : c.receiver = .hunting) {high low : Byte}
    (long : 1152 < high.toNat * 256 + low.toNat) (noStart : (0xC3 : Byte) ∉ [high, low]) :
    c.take [0xC3, high, low] = c.countError := by
  have taken : c.take [0xC3, high, low] = c.countError.take [high, low] :=
    (take_message hunting (by simp) fun n short => by
      obtain _ | _ | n := n
      · rfl
      · rfl
      · simp at short).2 (framing_long long)
  rw [taken, take_noise (c := c.countError) hunting noStart]

theorem receive_request (c : PortContext) (q : Request) : c.receive (.message ⟨q, 0⟩) = c.accept q := by
  unfold receive
  dsimp only
  rw [if_pos rfl]

theorem receive_flagged (c : PortContext) (q : Request) {flags : Byte} (other : flags ≠ 0) :
    c.receive (.message ⟨q, flags⟩) = c.countError := if_neg other

theorem accept_room {c : PortContext} {q : Request} (room : c.receiveQueue.length < 4) :
    c.accept q = { c with receiveQueue := c.receiveQueue ++ [q] } := if_pos room

theorem accept_full {c : PortContext} {q : Request} (full : 4 ≤ c.receiveQueue.length) :
    c.accept q = c.handBusy (c.busyReply q) := if_neg (by omega)

theorem timeOut_hunting {c : PortContext} (hunting : c.receiver = .hunting) : c.timeOut = c := by
  unfold timeOut
  rw [hunting]

theorem timeOut_inMessage {c : PortContext} {taken : List Byte} (inside : c.receiver = .inMessage taken) :
    c.timeOut = { c with errorCount := c.errorCount + 1, receiver := .hunting } := by
  unfold timeOut
  rw [inside]
  rfl

theorem timeOut_take (c : PortContext) (next : Byte) : c.timeOut.take [next] =
    { c with
      errorCount := if c.receiver = .hunting then c.errorCount else c.errorCount + 1
      receiver := if next = 0xC3 then .inMessage [] else .hunting } := by
  cases held : c.receiver with
  | hunting => rw [timeOut_hunting held, take_start held, if_pos rfl]; rfl
  | inMessage taken =>
    have inside : Receiver.inMessage taken ≠ .hunting := by rintro ⟨⟩
    rw [timeOut_inMessage held, take_start rfl, if_neg inside]
    rfl

end PortContext

theorem exec_bytes {instr : Instr} {p : Port} {bytes : List Byte}
    (arrive : instr = .requestArrival p bytes ∨ instr = .messageDiscard p bytes) (s : State) :
    exec instr s = .next (s.modPort p (·.take bytes)) := by
  obtain rfl | rfl := arrive <;> rfl

/-- Settles O57: what a hunting receiver takes, in the order of the message's bytes. -/
theorem receiversFrameMessages : Obligations.ReceiversFrameMessages := by
  intro p s c here
  refine ⟨fun noise body role kind tag instr bytes hunting clean fits arrive => ?_,
    fun one two both x y t isOne isTwo isBoth done => ?_, fun next => ?_⟩
  · have taken : ∀ d, c.take bytes = d → exec instr s = .next (s.modPort p fun _ => d) := fun d value => by
      rw [exec_bytes arrive, modPort_of_port here value]
    have cut := PortContext.take_cut hunting clean
    have request : bytes = noise ++ envelope role tag kind 0 body →
        c.take bytes = c.accept ⟨role, tag, kind, body⟩ := fun spelt => by
      rw [spelt, cut, PortContext.take_envelope hunting fits, PortContext.receive_request]
    refine ⟨fun spelt => ⟨fun room => ?_, fun full room => ?_, fun full crowded => ?_⟩, fun flags other spelt => ?_,
      fun high low long highClean lowClean spelt => ?_, fun flags high low inner more isInner wrong spelt => ?_,
      fun flags inner n isInner short spelt => ?_⟩ <;> apply taken
    · rw [request spelt, PortContext.accept_room room]
    · rw [request spelt, PortContext.accept_full full]
      exact if_pos room
    · rw [request spelt, PortContext.accept_full full]
      exact if_neg (by omega)
    · rw [spelt, cut, PortContext.take_envelope hunting fits]
      exact PortContext.receive_flagged c _ other
    · rw [spelt, cut, PortContext.take_long hunting long
        (by simp only [List.mem_cons, List.not_mem_nil, or_false, not_or]; exact ⟨Ne.symm highClean, Ne.symm lowClean⟩)]
      rfl
    · have grouped : bytes = noise ++ (0xC3 :: (inner.take (body.length + 7) ++ [high, low]) ++ more) := by
        rw [spelt]
        simp only [List.append_assoc, List.cons_append]
      rw [grouped, cut, ← PortContext.take_append, PortContext.take_wrongEnvelope hunting fits isInner wrong,
        PortContext.take_append]
      rfl
    · rw [spelt, cut]
      exact PortContext.take_begunEnvelope hunting fits isInner short
  · rw [exec_bytes isOne] at done
    cases done
    rw [exec_bytes isTwo, exec_bytes isBoth, modPort_modPort]
    exact congrArg Host.Outcome.next (modPort_congr (PortContext.take_append ..))
  · exact congrArg Host.Outcome.next (modPort_of_port here (PortContext.timeOut_take c next))

end Sys2Proof.Machine
end

section
/-! PROOFS: the bytes of messages, replies and receipts (R183, R187, R190, R191). -/

namespace Sys2Proof.Machine

/-! ## Fields of bytes laid out in pieces -/

theorem fieldAt_append_right {left : List Byte} {n : Nat} (size : left.length = n) (offset width : Nat)
    (right : List Byte) :
    fieldAt (n + offset) width (left ++ right) = fieldAt offset width right := by
  unfold fieldAt
  rw [← size, List.drop_length_add_append]

theorem fieldAt_append_left {left : List Byte} {n : Nat} (size : left.length = n) (right : List Byte) :
    fieldAt 0 n (left ++ right) = left := by
  unfold fieldAt
  rw [← size, List.drop_zero, List.take_left]

theorem fieldAt_whole {bytes : List Byte} {n : Nat} (size : bytes.length = n) : fieldAt 0 n bytes = bytes := by
  unfold fieldAt
  rw [← size, List.drop_zero, List.take_length]

/-- A field within a field. -/
theorem fieldAt_within {offset outer start width : Nat} (inside : start + width ≤ outer) (bytes : List Byte) :
    fieldAt (offset + start) width bytes = fieldAt start width (fieldAt offset outer bytes) := by
  unfold fieldAt
  rw [List.drop_take, List.take_take, List.drop_drop, min_eq_left (by omega)]

/-- Bytes made of pieces hold each piece at the widths before it. -/
theorem fieldAt_piece {pieces : List (List Byte)} : ∀ {widths : List Nat} {i offset width : Nat} {x : List Byte},
    pieces.map List.length = widths → pieces[i]? = some x → (widths.take i).sum = offset → widths[i]? = some width →
    fieldAt offset width pieces.flatten = x := by
  induction pieces with
  | nil => simp
  | cons p rest ih =>
    rintro _ i _ width x rfl here rfl size
    rw [List.flatten_cons]
    cases i with
    | zero =>
      obtain rfl : p = x := by simpa using here
      obtain rfl : p.length = width := by simpa using size
      exact fieldAt_append_left rfl _
    | succ i =>
      rw [List.map_cons, List.take_succ_cons, List.sum_cons, fieldAt_append_right rfl]
      exact ih rfl (by simpa using here) rfl (by simpa using size)

theorem length_flatten_of_widths {pieces : List (List Byte)} {widths : List Nat}
    (isWidths : pieces.map List.length = widths) :
    pieces.flatten.length = widths.sum := by rw [List.length_flatten, isWidths]

/-- Pieces of one width stand at its multiples. -/
theorem fieldAt_flatMap {α : Type} {f : α → List Byte} {width : Nat} (size : ∀ x, (f x).length = width) {l : List α} :
    ∀ {n : Nat} {x : α}, l[n]? = some x → fieldAt (width * n) width (l.flatMap f) = f x := by
  induction l with
  | nil => simp
  | cons y rest ih =>
    intro n x here
    rw [List.flatMap_cons]
    cases n with
    | zero =>
      obtain rfl : y = x := by simpa using here
      exact fieldAt_append_left (size y) _
    | succ n =>
      rw [Nat.mul_succ, Nat.add_comm, fieldAt_append_right (size y)]
      exact ih (by simpa using here)

theorem beNat_beBytes_of_lt {width n : Nat} (fits : n < 256 ^ width) : beNat (beBytes width n) = n := by
  rw [beNat_beBytes, Nat.mod_eq_of_lt fits]

theorem beNat_single (b : Byte) : beNat [b] = b.toNat := by simp [beNat]

theorem timeBytes_length (t : Option SiteTime) : (timeBytes t).length = 6 := by
  cases t <;> simp [timeBytes, beBytes_length]

/-! ## Messages -/

/-- The fields of a message in their order (R187). -/
def messagePieces (role : Byte) (tag : Word16) (kind flags : Byte) (body : List Byte) : List (List Byte) :=
  [[0xC3], beBytes 2 body.length, [role], bytes16 tag, [kind], [flags], body,
    crcBytes (beBytes 2 body.length ++ role :: (bytes16 tag ++ kind :: flags :: body))]

theorem envelope_pieces (role : Byte) (tag : Word16) (kind flags : Byte) (body : List Byte) :
    envelope role tag kind flags body = (messagePieces role tag kind flags body).flatten := by
  simp [envelope, messagePieces]

theorem messagePieces_widths (role : Byte) (tag : Word16) (kind flags : Byte) (body : List Byte) :
    (messagePieces role tag kind flags body).map List.length = [1, 2, 1, 2, 1, 1, body.length, 2] := by
  simp [messagePieces, beBytes_length, crcBytes_length, bytes16]

theorem beNat_bytes16 (w : Word16) : beNat (bytes16 w) = w.toNat := by
  rw [← toNat_bytes16 w]
  simp [beNat, bytes16]

theorem framing_envelope {role kind flags : Byte} {tag : Word16} {body : List Byte} (fits : body.length ≤ 1152) :
    framing ((envelope role tag kind flags body).drop 1) = .whole ⟨⟨role, tag, kind, body⟩, flags⟩ := by
  obtain ⟨l1, l0, t1, t0, isEnvelope, isTag, size⟩ := envelope_eq role tag kind flags body
  rw [isEnvelope, ← isTag]
  exact framing_whole (size fits) fits rfl

/-- The CRC of a message covers what stands between its start byte and it (R187). -/
theorem crc_envelope (role : Byte) (tag : Word16) (kind flags : Byte) (body : List Byte) :
    fieldAt (8 + body.length) 2 (envelope role tag kind flags body) =
      crcBytes (fieldAt 1 (7 + body.length) (envelope role tag kind flags body)) := by
  have covered : fieldAt 1 (7 + body.length) (envelope role tag kind flags body) =
      beBytes 2 body.length ++ role :: (bytes16 tag ++ kind :: flags :: body) := by
    unfold envelope
    rw [show (1 : Nat) = 1 + 0 from rfl, ← List.singleton_append, fieldAt_append_right (n := 1) rfl]
    refine fieldAt_append_left ?_ _
    simp only [List.length_append, List.length_cons, beBytes_length, bytes16, List.length_nil]
    omega
  rw [covered, envelope_pieces]
  exact fieldAt_piece (messagePieces_widths role tag kind flags body) (i := 7) rfl (by simp; omega) rfl

theorem message_fields {role kind flags : Byte} {tag : Word16} {body bytes : List Byte} (fits : body.length ≤ 1152)
    (spelt : bytes = envelope role tag kind flags body) :
    bytes.length = body.length + 10 ∧ fieldAt 0 1 bytes = [0xC3] ∧ beNat (fieldAt 1 2 bytes) = body.length ∧
    fieldAt 3 1 bytes = [role] ∧ beNat (fieldAt 4 2 bytes) = tag.toNat ∧ fieldAt 6 1 bytes = [kind] ∧
    fieldAt 7 1 bytes = [flags] ∧ fieldAt 8 body.length bytes = body ∧
    beNat (fieldAt (8 + body.length) 2 bytes) = (crc16 (fieldAt 1 (7 + body.length) bytes)).toNat ∧
    framing (bytes.drop 1) = .whole ⟨⟨role, tag, kind, body⟩, flags⟩ := by
  subst spelt
  have widths := messagePieces_widths role tag kind flags body
  have crc := crc_envelope role tag kind flags body
  have framed := framing_envelope (role := role) (kind := kind) (flags := flags) (tag := tag) fits
  generalize isBytes : envelope role tag kind flags body = bytes at crc framed ⊢
  rw [envelope_pieces] at isBytes
  have field : ∀ i {x : List Byte} {offset width : Nat}, (messagePieces role tag kind flags body)[i]? = some x →
      ([1, 2, 1, 2, 1, 1, body.length, 2].take i).sum = offset →
      [1, 2, 1, 2, 1, 1, body.length, 2][i]? = some width → fieldAt offset width bytes = x :=
    fun i x offset width here before size => isBytes ▸ fieldAt_piece widths here before size
  refine ⟨?_, field 0 rfl rfl rfl, ?_, field 2 rfl rfl rfl, ?_, field 4 rfl rfl rfl, field 5 rfl rfl rfl,
    field 6 rfl rfl rfl, ?_, framed⟩
  · rw [← isBytes, length_flatten_of_widths widths]
    simp
    omega
  · exact (congrArg beNat (field 1 rfl rfl rfl)).trans (beNat_beBytes_of_lt (by omega))
  · exact (congrArg beNat (field 3 rfl rfl rfl)).trans (beNat_bytes16 tag)
  · rw [crc]
    exact beNat_beBytes_of_lt (BitVec.isLt _)

theorem flags_eq {m : Message} {resent reply : Bool} (isResent : m.body.resent = resent)
    (isReply : m.body.isReply = reply) :
    m.flags = (if reply then 1 else 2) + (if resent then 4 else 0) + (if m.droppedFlag then 8 else 0) := by
  unfold Message.flags
  rw [isResent, isReply]
  generalize m.droppedFlag = dropped
  clear isResent isReply
  revert dropped resent reply
  decide

theorem flags_reply {m : Message} {r : Reply} (isReply : m.body = .reply r) :
    m.flags = if m.droppedFlag then 0x09 else 0x01 := by
  rw [flags_eq (resent := false) (reply := true) (by rw [isReply]; rfl) (by rw [isReply]; rfl)]
  cases m.droppedFlag <;> rfl

theorem resent_of_ne {n : Notice} (time : Option SiteTime) (other : ∀ r, n ≠ .receipt r true) :
    Body.resent (.notice time n) = false := by
  unfold Body.resent
  split
  next r resent same =>
    cases same
    cases resent with
    | false => rfl
    | true => exact absurd rfl (other r)
  next => rfl

theorem flags_notice {m : Message} {n : Notice} {time : Option SiteTime} {resent : Bool}
    (isNotice : m.body = .notice time n)
    (isResent : Body.resent (.notice time n) = resent) :
    m.flags = if resent then (if m.droppedFlag then 0x0E else 0x06) else if m.droppedFlag then 0x0A else 0x02 := by
  rw [flags_eq (reply := false) (by rw [isNotice, isResent]) (by rw [isNotice]; rfl)]
  cases resent <;> cases m.droppedFlag <;> rfl

/-! ## Times and heads -/

theorem time_fields (t : SiteTime) :
    (timeBytes (some t)).length = 6 ∧ beNat (fieldAt 0 2 (timeBytes (some t))) = t.day.val ∧
      beNat (fieldAt 2 4 (timeBytes (some t))) = t.ms.val ∧ timeBytes none = List.replicate 6 0xFF := by
  have day : fieldAt 0 2 (timeBytes (some t)) = beBytes 2 t.day.val := fieldAt_append_left (beBytes_length ..) _
  have ms : fieldAt 2 4 (timeBytes (some t)) = beBytes 4 t.ms.val :=
    (fieldAt_append_right (beBytes_length ..) 0 4 _).trans (fieldAt_whole (beBytes_length ..))
  refine ⟨timeBytes_length _, ?_, ?_, by decide⟩
  · rw [day, beNat_beBytes_of_lt t.day.isLt]
  · rw [ms, beNat_beBytes_of_lt (Nat.lt_trans t.ms.isLt (by decide))]

/-- The fields of a reply whose contents are bytes `rest` (R183). -/
def replyPieces (code : ResultCode) (occupancy : Nat) (errors dropped : Word32) (rest : List Byte) : List (List Byte) :=
  [[code.value], beBytes 1 occupancy, beBytes 4 errors.toNat, beBytes 4 dropped.toNat, rest]

theorem replyPieces_widths (code : ResultCode) (occupancy : Nat) (errors dropped : Word32) (rest : List Byte) :
    (replyPieces code occupancy errors dropped rest).map List.length = [1, 1, 4, 4, rest.length] := by
  simp [replyPieces, beBytes_length]

theorem reply_fields {code : ResultCode} {occupancy : Nat} {errors dropped : Word32} {rest bytes : List Byte}
    (fits : occupancy < 256) (spelt : bytes = (replyPieces code occupancy errors dropped rest).flatten) :
    fieldAt 0 1 bytes = [code.value] ∧ beNat (fieldAt 1 1 bytes) = occupancy ∧
    beNat (fieldAt 2 4 bytes) = errors.toNat ∧ beNat (fieldAt 6 4 bytes) = dropped.toNat ∧
    bytes.length = 10 + rest.length ∧ fieldAt 10 rest.length bytes = rest := by
  subst spelt
  have widths := replyPieces_widths code occupancy errors dropped rest
  refine ⟨fieldAt_piece widths (i := 0) rfl rfl rfl, ?_, ?_, ?_, ?_, fieldAt_piece widths (i := 4) rfl rfl rfl⟩
  · exact (congrArg beNat (fieldAt_piece widths (i := 1) rfl rfl rfl)).trans (beNat_beBytes_of_lt fits)
  · exact (congrArg beNat (fieldAt_piece widths (i := 2) rfl rfl rfl)).trans (beNat_beBytes_of_lt errors.isLt)
  · exact (congrArg beNat (fieldAt_piece widths (i := 3) rfl rfl rfl)).trans (beNat_beBytes_of_lt dropped.isLt)
  · rw [length_flatten_of_widths widths]
    simp
    omega

theorem authorised_fields {record : RecordId} {seq : Word32} {bytes : List Byte}
    (spelt : fieldAt 10 5 bytes = beBytes 1 record.val ++ beBytes 4 seq.toNat) :
    beNat (fieldAt 10 1 bytes) = record.val ∧ beNat (fieldAt 11 4 bytes) = seq.toNat := by
  have first : fieldAt 10 1 bytes = beBytes 1 record.val := by
    rw [fieldAt_within (start := 0) (outer := 5) (by decide), spelt]
    exact fieldAt_append_left (beBytes_length ..) _
  have second : fieldAt 11 4 bytes = beBytes 4 seq.toNat := by
    rw [show 11 = 10 + 1 from rfl, fieldAt_within (outer := 5) (by decide), spelt]
    exact (fieldAt_append_right (beBytes_length ..) 0 4 _).trans (fieldAt_whole (beBytes_length ..))
  rw [first, second, beNat_beBytes_of_lt (by omega), beNat_beBytes_of_lt seq.isLt]
  exact ⟨rfl, rfl⟩

/-! ## Receipts -/

/-- The token of a receipt, 17 bytes (R191). -/
def tokenPiece : Option Token → List Byte
  | some t => 1#8 :: beBytes 16 t.toNat
  | none => 0#8 :: beBytes 16 0

/-- The idle line of a receipt, 9 bytes (R191). -/
def idlePiece : Option IdleLine → List Byte
  | some i => 1#8 :: (beBytes 4 i.minutes ++ beBytes 4 i.fee)
  | none => 0#8 :: (beBytes 4 0 ++ beBytes 4 0)

theorem tokenPiece_length (t : Option Token) : (tokenPiece t).length = 17 := by
  cases t <;> simp [tokenPiece, beBytes_length]

theorem idlePiece_length (i : Option IdleLine) : (idlePiece i).length = 9 := by
  cases i <;> simp [idlePiece, beBytes_length]

theorem tokenPiece_some (t : Token) :
    fieldAt 0 1 (tokenPiece (some t)) = [1] ∧ beNat (fieldAt 1 16 (tokenPiece (some t))) = t.toNat := by
  refine ⟨rfl, ?_⟩
  have value : fieldAt 1 16 (tokenPiece (some t)) = beBytes 16 t.toNat :=
    (fieldAt_append_right (left := [1#8]) rfl 0 16 (beBytes 16 t.toNat)).trans (fieldAt_whole (beBytes_length ..))
  rw [value, beNat_beBytes_of_lt t.isLt]

theorem idlePiece_some {i : IdleLine} (minutes : i.minutes < 2 ^ 32) (fee : i.fee < 2 ^ 32) :
    fieldAt 0 1 (idlePiece (some i)) = [1] ∧ beNat (fieldAt 1 4 (idlePiece (some i))) = i.minutes ∧
      beNat (fieldAt 5 4 (idlePiece (some i))) = i.fee := by
  have first : fieldAt 1 4 (idlePiece (some i)) = beBytes 4 i.minutes :=
    (fieldAt_append_right (left := [1#8]) rfl 0 4 _).trans (fieldAt_append_left (beBytes_length ..) _)
  have second : fieldAt 5 4 (idlePiece (some i)) = beBytes 4 i.fee :=
    ((fieldAt_append_right (left := [1#8]) rfl 4 4 _).trans (fieldAt_append_right (beBytes_length ..) 0 4 _)).trans
      (fieldAt_whole (beBytes_length ..))
  rw [first, second, beNat_beBytes_of_lt minutes, beNat_beBytes_of_lt fee]
  exact ⟨rfl, rfl, rfl⟩

/-- The fields of a line in their order (R191). -/
def linePieces (l : ReceiptLine) : List (List Byte) :=
  [beBytes 1 l.recordIndex, timeBytes l.firstUse, beBytes 2 l.triple.solar, beBytes 2 l.triple.battery,
    beBytes 2 l.triple.grid, beBytes 16 (l.solar * 2 ^ 84 + l.battery * 2 ^ 42 + l.grid), beBytes 4 l.cost]

theorem lineBytes_pieces (l : ReceiptLine) : lineBytes l = (linePieces l).flatten := by
  simp [lineBytes, linePieces]

theorem linePieces_widths (l : ReceiptLine) : (linePieces l).map List.length = [1, 6, 2, 2, 2, 16, 4] := by
  simp [linePieces, beBytes_length, timeBytes_length]

theorem lineBytes_length (l : ReceiptLine) : (lineBytes l).length = 33 := by
  rw [lineBytes_pieces, length_flatten_of_widths (linePieces_widths l)]
  rfl

theorem line_fields {l : ReceiptLine} (index : l.recordIndex < 256) (sun : l.triple.solar < 2 ^ 16)
    (stored : l.triple.battery < 2 ^ 16) (bought : l.triple.grid < 2 ^ 16) (solar : l.solar < 2 ^ 42)
    (battery : l.battery < 2 ^ 42) (grid : l.grid < 2 ^ 42) (cost : l.cost < 2 ^ 32) :
    beNat (fieldAt 0 1 (lineBytes l)) = l.recordIndex ∧ fieldAt 1 6 (lineBytes l) = timeBytes l.firstUse ∧
      beNat (fieldAt 7 2 (lineBytes l)) = l.triple.solar ∧ beNat (fieldAt 9 2 (lineBytes l)) = l.triple.battery ∧
      beNat (fieldAt 11 2 (lineBytes l)) = l.triple.grid ∧
      beNat (fieldAt 13 16 (lineBytes l)) = l.solar * 2 ^ 84 + l.battery * 2 ^ 42 + l.grid ∧
      beNat (fieldAt 29 4 (lineBytes l)) = l.cost := by
  rw [lineBytes_pieces]
  have widths := linePieces_widths l
  refine ⟨?_, fieldAt_piece widths (i := 1) rfl rfl rfl, ?_, ?_, ?_, ?_, ?_⟩
  · exact (congrArg beNat (fieldAt_piece widths (i := 0) rfl rfl rfl)).trans (beNat_beBytes_of_lt index)
  · exact (congrArg beNat (fieldAt_piece widths (i := 2) rfl rfl rfl)).trans (beNat_beBytes_of_lt sun)
  · exact (congrArg beNat (fieldAt_piece widths (i := 3) rfl rfl rfl)).trans (beNat_beBytes_of_lt stored)
  · exact (congrArg beNat (fieldAt_piece widths (i := 4) rfl rfl rfl)).trans (beNat_beBytes_of_lt bought)
  · exact (congrArg beNat (fieldAt_piece widths (i := 5) rfl rfl rfl)).trans (beNat_beBytes_of_lt (by omega))
  · exact (congrArg beNat (fieldAt_piece widths (i := 6) rfl rfl rfl)).trans (beNat_beBytes_of_lt cost)

/-- The fields of a receipt in their order (R191). -/
def receiptPieces (r : Receipt) : List (List Byte) :=
  [beBytes 4 r.number.toNat, timeBytes r.issueTime, beBytes 1 r.head.val, beBytes 4 r.startSeq.toNat,
    tokenPiece r.token, beBytes 1 r.plan.val, beBytes 8 r.label.toNat, beBytes 1 r.cls.val, beBytes 1 r.firstBay.val,
    beBytes 1 r.lastBay.val, timeBytes r.startTime, timeBytes r.endTime, [r.endReason.value], beBytes 1 r.records,
    beBytes 1 r.lines.length, idlePiece r.idleLine, beBytes 6 r.totalMWh, beBytes 6 r.totalCents,
    r.lines.flatMap lineBytes]

/-- The widths of the fields of a receipt before its lines (R191). -/
def headWidths : List Nat := [4, 6, 1, 4, 17, 1, 8, 1, 1, 1, 6, 6, 1, 1, 1, 9, 6, 6]

/-- The widths of the fields of a receipt with `n` lines. -/
def receiptWidths (n : Nat) : List Nat := headWidths ++ [33 * n]

theorem receiptWidths_before (n : Nat) {i offset : Nat} (before : i ≤ 18 ∧ (headWidths.take i).sum = offset) :
    ((receiptWidths n).take i).sum = offset := by
  obtain ⟨inside, rfl⟩ := before
  rw [receiptWidths, List.take_append_of_le_length inside]

theorem receiptBody_pieces (r : Receipt) : receiptBody r = (receiptPieces r).flatten := by
  unfold receiptBody receiptPieces
  simp only [List.flatten_cons, List.flatten_nil, List.append_nil, List.append_assoc]
  cases r.token <;> cases r.idleLine <;> rfl

theorem receiptPieces_widths (r : Receipt) :
    (receiptPieces r).map List.length = receiptWidths r.lines.length := by
  simp [receiptPieces, receiptWidths, headWidths, beBytes_length, timeBytes_length, tokenPiece_length, idlePiece_length,
    lineBytes_length, Nat.mul_comm]

/-- A field of a receipt stands after the widths of those before it. -/
theorem receipt_piece (r : Receipt) (i : Nat) {x : List Byte} {offset width : Nat}
    (here : (receiptPieces r)[i]? = some x)
    (before : i ≤ 18 ∧ (headWidths.take i).sum = offset)
    (size : (receiptWidths r.lines.length)[i]? = some width) : fieldAt offset width (receiptBody r) = x := by
  rw [receiptBody_pieces]
  exact fieldAt_piece (receiptPieces_widths r) here (receiptWidths_before _ before) size

theorem receipt_number (r : Receipt) (i : Nat) {n offset width : Nat}
    (here : (receiptPieces r)[i]? = some (beBytes width n))
    (before : i ≤ 18 ∧ (headWidths.take i).sum = offset)
    (size : (receiptWidths r.lines.length)[i]? = some width) (fits : n < 256 ^ width) :
    beNat (fieldAt offset width (receiptBody r)) = n := by
  rw [receipt_piece r i here before size, beNat_beBytes_of_lt fits]

theorem receipt_length (r : Receipt) : (receiptBody r).length = 80 + 33 * r.lines.length := by
  rw [receiptBody_pieces, length_flatten_of_widths (receiptPieces_widths r)]
  rw [receiptWidths, List.sum_append, List.sum_singleton]
  rfl

theorem receipt_token (r : Receipt) :
    (r.token = none → fieldAt 15 17 (receiptBody r) = List.replicate 17 0) ∧
    ∀ t, r.token = some t → fieldAt 15 1 (receiptBody r) = [1] ∧ beNat (fieldAt 16 16 (receiptBody r)) = t.toNat := by
  have piece : fieldAt 15 17 (receiptBody r) = tokenPiece r.token := receipt_piece r 4 rfl (by decide) rfl
  refine ⟨fun absent => by rw [piece, absent]; decide, fun t present => ?_⟩
  rw [present] at piece
  rw [show 16 = 15 + 1 from rfl, fieldAt_within (outer := 17) (by decide), piece,
    show fieldAt 15 1 (receiptBody r) = fieldAt 0 1 (fieldAt 15 17 (receiptBody r)) from
      fieldAt_within (start := 0) (by decide) _, piece]
  exact tokenPiece_some t

theorem receipt_idle (r : Receipt) :
    (r.idleLine = none → fieldAt 59 9 (receiptBody r) = List.replicate 9 0) ∧
    ∀ i, r.idleLine = some i → i.minutes < 2 ^ 32 → i.fee < 2 ^ 32 →
      fieldAt 59 1 (receiptBody r) = [1] ∧ beNat (fieldAt 60 4 (receiptBody r)) = i.minutes ∧
        beNat (fieldAt 64 4 (receiptBody r)) = i.fee := by
  have piece : fieldAt 59 9 (receiptBody r) = idlePiece r.idleLine := receipt_piece r 15 rfl (by decide) rfl
  refine ⟨fun absent => by rw [piece, absent]; decide, fun i present minutes fee => ?_⟩
  rw [present] at piece
  have within : ∀ start width, start + width ≤ 9 →
      fieldAt (59 + start) width (receiptBody r) = fieldAt start width (idlePiece (some i)) :=
        fun start width inside => by
    rw [fieldAt_within inside, piece]
  have first := within 0 1 (by decide)
  have second := within 1 4 (by decide)
  have third := within 5 4 (by decide)
  rw [first, second, third]
  exact idlePiece_some minutes fee

theorem receipt_line {r : Receipt} {n : Nat} {l : ReceiptLine} (here : r.lines[n]? = some l) :
    fieldAt (80 + 33 * n) 33 (receiptBody r) = lineBytes l := by
  have inside : n < r.lines.length := (List.getElem?_eq_some_iff.mp here).1
  have piece : fieldAt 80 (33 * r.lines.length) (receiptBody r) = r.lines.flatMap lineBytes :=
    receipt_piece r 18 rfl (by decide) rfl
  rw [fieldAt_within (outer := 33 * r.lines.length) (by omega), piece]
  exact fieldAt_flatMap lineBytes_length here

/-- Settles O60: each field stands after the widths of those before it. -/
theorem messagesAreLaidOut : Obligations.MessagesAreLaidOut := by
  refine ⟨fun role kind flags tag body bytes fits spelt => message_fields fits spelt,
    fun m body bytes isBody isBytes => ⟨?_, fun r isReply => flags_reply isReply, fun time n isNotice other => ?_,
      fun time r isNotice => ?_⟩, time_fields,
    fun code occupancy errors dropped seq record contents bytes fits which spelt => ?_, by decide,
   
      fun time cause defaults bytes spelt => ?_,
      fun time r resent bytes spelt records lines totalMWh totalCents idle => ?_⟩
  · unfold Message.bytes at isBytes
    rw [isBody] at isBytes
    exact (Option.some.inj isBytes).symm
  · exact flags_notice isNotice (resent_of_ne time other)
  · exact flags_notice (resent := true) isNotice rfl
  · obtain rfl | rfl := which
    · obtain ⟨first, second, third, fourth, size, -⟩ := reply_fields (code := code) (errors := errors)
        (dropped := dropped)
        (rest := []) (bytes := bytes) fits (by
          rw [← Option.some.inj spelt]
          simp [replyHead, replyPieces])
      exact ⟨first, second, third, fourth, fun _ => size, nofun⟩
    · obtain ⟨first, second, third, fourth, size, rest⟩ := reply_fields (code := code) (errors := errors)
        (dropped := dropped)
        (rest := beBytes 1 record.val ++ beBytes 4 seq.toNat) (bytes := bytes) fits (by
          rw [← Option.some.inj spelt]
          simp [replyHead, replyPieces])
      refine ⟨first, second, third, fourth, nofun, fun _ => ⟨?_, authorised_fields ?_⟩⟩
      · rw [size, List.length_append, beBytes_length, beBytes_length]
      · rw [List.length_append, beBytes_length, beBytes_length] at rest
        exact rest
  · rw [← Option.some.inj spelt]
    cases cause <;> rfl
  · obtain rfl : receiptBody r = bytes := Option.some.inj spelt
    obtain ⟨noToken, token⟩ := receipt_token r
    obtain ⟨noIdle, idleLine⟩ := receipt_idle r
    refine ⟨receipt_length r, receipt_number r 0 rfl (by decide) rfl r.number.isLt, receipt_piece r 1 rfl
      (by decide) rfl,
      receipt_number r 2 rfl (by decide) rfl (by omega), receipt_number r 3 rfl (by decide) rfl r.startSeq.isLt,
        noToken, token,
      receipt_number r 5 rfl (by decide) rfl (by omega), receipt_number r 6 rfl (by decide) rfl r.label.isLt,
      receipt_number r 7 rfl (by decide) rfl (by omega), receipt_number r 8 rfl (by decide) rfl (by omega),
      receipt_number r 9 rfl (by decide) rfl (by omega), receipt_piece r 10 rfl (by decide) rfl, receipt_piece r 11 rfl
        (by decide) rfl, ?_,
      receipt_number r 13 rfl (by decide) rfl records, receipt_number r 14 rfl (by decide) rfl lines, noIdle,
      fun i present => idleLine i present (idle i present).1 (idle i present).2,
      receipt_number r 16 rfl (by decide) rfl totalMWh, receipt_number r 17 rfl (by decide) rfl totalCents,
      fun n l line here isLine index sun stored bought solar battery grid cost => ?_⟩
    · refine (congrArg beNat (receipt_piece r 12 rfl (by decide) rfl)).trans ((beNat_single _).trans ?_)
      cases r.endReason <;> rfl
    · rw [isLine, receipt_line here]
      exact line_fields index sun stored bought solar battery grid cost

end Sys2Proof.Machine
end

section
/-! PROOFS: eligibility and the terms of an allocation (R40–R57, R174). -/

namespace Sys2Proof.Machine

/-! ## Eligibility -/

theorem scheduled_iff (s : State) (b : BayId) :
    s.scheduled b = true ↔ (s.activeMasks b).down ≠ 0 ∧ (s.activeMasks b).up ≠ 0 := by
  simp [State.scheduled, Masks.scheduled]

theorem eligible_iff (s : State) (b : BayId) (x : Eligible) : s.eligible b = some x ↔
    ∃ r : RecordId, (s.bay b).session = some r ∧ (s.record r).state = .active ∧ (s.bay b).link = .online ∧
      (s.activeMasks b).down ≠ 0 ∧ (s.activeMasks b).up ≠ 0 ∧ (s.bay b).lastStatus.vehicle = .demanding ∧
      x = ⟨b, (s.record r).cls, (s.record r).startSeq.getD 0,
        min (s.bay b).lastStatus.heldRequest s.settings.cableRating[b.val], 23 * s.settings.phases[b.val]⟩ := by
  unfold State.eligible
  cases held : (s.bay b).session with
  | none => simp
  | some r =>
    dsimp only
    split
    next judged =>
      obtain ⟨link, scheduled, active, demanding⟩ := judged
      obtain ⟨down, up⟩ := (scheduled_iff s b).mp scheduled
      constructor
      · intro same
        exact ⟨r, rfl, active, link, down, up, demanding, (Option.some.inj same).symm⟩
      · rintro ⟨_, ⟨⟩, -, -, -, -, -, rfl⟩
        rfl
    next unfit =>
      constructor
      · nofun
      · rintro ⟨_, ⟨⟩, active, link, down, up, demanding, -⟩
        exact absurd ⟨link, (scheduled_iff s b).mpr ⟨down, up⟩, active, demanding⟩ unfit

/-- An eligible bay's figures name the bay. -/
theorem bay_of_eligible {s : State} {b : BayId} {x : Eligible} (eligible : s.eligible b = some x) : x.bay = b := by
  obtain ⟨r, -, -, -, -, -, -, rfl⟩ := (eligible_iff s b x).mp eligible
  rfl

theorem mem_eligibles (s : State) (x : Eligible) : x ∈ s.eligibles ↔ s.eligible x.bay = some x := by
  unfold State.eligibles
  rw [List.mem_filterMap]
  constructor
  · rintro ⟨b, -, eligible⟩
    rw [bay_of_eligible eligible, eligible]
  · intro eligible
    exact ⟨x.bay, List.mem_finRange _, eligible⟩

theorem demand01_eq (s : State) : s.demand01 =
    (((allBays.filterMap s.eligible).filter fun x => x.cls = 0 ∨ x.cls = 1).map fun x => x.req * x.weight).sum := by
  have low : ∀ c : Fin 3, (c ≠ 2) ↔ (c = 0 ∨ c = 1) := by decide
  unfold State.demand01 demandOf State.eligibles
  congr 2
  exact List.filter_congr fun x _ => decide_eq_decide.mpr (low x.cls)

/-! ## The guard and the limit -/

theorem guard_off {s : State} (off : s.now = none ∨ s.settings.demandTarget = 0) : s.guard = none := by
  unfold State.guard
  split
  next now i isNow current =>
    obtain unset | zero := off
    · rw [unset] at isNow
      cases isNow
    · rw [if_neg (by omega)]
  next => rfl

theorem guardCycle_eq (s : State) :
    s.guardCycle = s.ivm.lastCycle.getD (s.settings.periodsPerCycle * s.settings.periodLength) := by
  unfold State.guardCycle
  split <;> simp [*]

theorem guard_on {s : State} {now : SiteTime} {i : Interval} (isNow : s.now = some now)
    (current : s.ivm.current = some i) (target : 1 ≤ s.settings.demandTarget) :
    s.guard = some (guardOf s.settings.demandTarget s.guardCycle now i) := by
  unfold State.guard
  rw [isNow, current]
  exact if_pos target

/-- The limit source names the first term that gives the least limit (R40). -/
theorem source_cases (setting : Nat) (overlay guard : Option Nat) :
    let limit := lesserLimit (lesserLimit (setting, .setting) (overlay.map fun v => (v, .curtail)))
      (guard.map fun v => (v, .guard))
    (limit.2 = .setting ↔ (∀ o, overlay = some o → setting ≤ o) ∧ ∀ v, guard = some v → setting ≤ v) ∧
    (limit.2 = .curtail ↔ ∃ o, overlay = some o ∧ o < setting ∧ ∀ v, guard = some v → o ≤ v) ∧
    (limit.2 = .guard ↔ ∃ v, guard = some v ∧ v < setting ∧ ∀ o, overlay = some o → v < o) := by
  cases overlay <;> cases guard <;> grind [lesserLimit]

theorem effectiveLimit_eq (s : State) : s.effectiveLimit =
    lesserLimit (lesserLimit (s.settings.importLimit, .setting)
      ((s.ale.overlay.map (·.limit)).map fun v => (v, .curtail))) (s.guard.map fun v => (v, .guard)) := by
  unfold State.effectiveLimit
  rw [Option.map_map]
  rfl

theorem effectiveLimit_value (s : State) : s.effectiveLimit.1 =
    ((s.ale.overlay.map (·.limit)).toList ++ s.guard.toList).foldl min s.settings.importLimit := by
  rw [effectiveLimit_eq]
  cases s.ale.overlay.map (·.limit) <;> cases s.guard <;> grind [lesserLimit]

theorem source_spec {s : State} {source : LimitSource} (isSource : source = s.effectiveLimit.2) :
    (source = .setting ↔ (∀ o, s.ale.overlay = some o → s.settings.importLimit ≤ o.limit) ∧
      ∀ v, s.guard = some v → s.settings.importLimit ≤ v) ∧
    (source = .curtail ↔ ∃ o, s.ale.overlay = some o ∧ o.limit < s.settings.importLimit ∧
      ∀ v, s.guard = some v → o.limit ≤ v) ∧
    (source = .guard ↔ ∃ v, s.guard = some v ∧ v < s.settings.importLimit ∧
      ∀ o, s.ale.overlay = some o → v < o.limit) := by
  have cases := source_cases s.settings.importLimit (s.ale.overlay.map (·.limit)) s.guard
  rw [isSource, effectiveLimit_eq]
  cases held : s.ale.overlay with
  | none => simpa [held] using cases
  | some o => simpa [held] using cases

/-! ## The canopy ceilings -/

theorem ceilings_within {s : State} {m : MeasurementSet} {planned : Nat} (live : m.meterLost = false)
    (within : ∀ limit, s.settings.exportLimit = some limit → planned ≤ limit) : s.ceilings m planned = .unlimited := by
  unfold State.ceilings
  rw [live, if_neg (by decide)]
  split
  next limit isLimit => rw [if_neg (Nat.not_lt.mpr (within limit isLimit))]
  next => rfl

theorem ceilings_above {s : State} {m : MeasurementSet} {planned limit : Nat} (live : m.meterLost = false)
    (isLimit : s.settings.exportLimit = some limit) (above : limit < planned) :
    s.ceilings m planned = .limiting m (m.solar - (planned - limit) + s.settings.probeStep) := by
  unfold State.ceilings
  rw [live, if_neg (by decide), isLimit]
  exact if_pos above

theorem ceilings_lost {s : State} {m : MeasurementSet} {planned : Nat} (lost : m.meterLost = true) :
    (∀ o, s.ale.current = some o → s.ceilings m planned = ⟨none, o.ceilings, o.exportLimited, true⟩) ∧
    (s.ale.current = none → s.ceilings m planned = .unlimited) := by
  unfold State.ceilings
  rw [lost, if_pos rfl]
  refine ⟨fun o current => ?_, fun absent => ?_⟩
  · rw [current]
  · rw [absent]

/-- What is planned to be fed out is no more than the solar power. -/
theorem plannedExport_le (m : MeasurementSet) (t : Terms) (a : Allotment) (charge : Nat) :
    plannedExport m t a charge ≤ m.solar := by
  unfold plannedExport
  split <;> omega

/-- Settles O48: each term is that of its definition. -/
theorem termsFollowTheSite : Obligations.TermsFollowTheSite := by
  rintro s m g isSet
  have guard : g.guard = s.guard := by rw [isSet]; rfl
  have source : g.source = s.effectiveLimit.2 := by rw [isSet]; rfl
  obtain ⟨fromSetting, fromCurtail, fromGuard⟩ := source_spec source
  obtain ⟨planned, isPlanned, bounded⟩ : ∃ planned, g.exportPlanned = planned ∧ planned ≤ m.solar :=
    ⟨_, rfl, by rw [isSet]; exact plannedExport_le ..⟩
  have ceilings : (⟨g.totalCeiling, g.ceilings, g.exportLimited, g.ceilingsCarried⟩ : Ceilings) =
    s.ceilings m planned := by
    rw [← isPlanned, isSet]
    rfl
  have parts : ∀ c : Ceilings, s.ceilings m planned = c →
      g.totalCeiling = c.total ∧ g.ceilings = c.each ∧ g.exportLimited = c.limited ∧ g.ceilingsCarried = c.carried := by
    rintro _ rfl
    rw [← ceilings]
    exact ⟨rfl, rfl, rfl, rfl⟩
  refine ⟨eligible_iff s, by rw [isSet]; exact demand01_eq s, fun off => guard.trans (guard_off off),
    fun now i cycle isNow current target isCycle => ?_, guard ▸ fromSetting, guard ▸ fromCurtail, guard ▸ fromGuard,
    fun live within => parts _ (ceilings_within live (isPlanned ▸ within)), fun limit live isLimit above => ?_,
    fun o lost current => parts _ ((ceilings_lost lost).1 o current),
    fun lost absent => parts _ ((ceilings_lost lost).2 absent), by rw [isSet]; rfl, ?_, by rw [isSet]; rfl,
    by rw [isSet]; rfl, by rw [isSet]; rfl, by rw [isSet]; rfl⟩
  · rw [guard, guard_on isNow current target, guardCycle_eq, ← isCycle]
    rfl
  · rw [isPlanned] at above ⊢
    obtain ⟨total, each, limited, carried⟩ := parts _ (ceilings_above live isLimit above)
    refine ⟨m.solar - (planned - limit) + s.settings.probeStep, by omega, total, limited, carried, fun k => ?_⟩
    rw [each]
    simp [Ceilings.limiting]
  · have curtailed : g.curtailed = s.ale.overlay.isSome := by rw [isSet]; rfl
    rw [curtailed, Option.isSome_iff_ne_none]

end Sys2Proof.Machine
end

section
/-! PROOFS: the walks, the level fill, and the bounds of every grant (R58–R66). -/

namespace Sys2Proof.Machine

/-! ## Candidates -/

theorem mem_candidates (s : State) (q : Word32) (c : Candidate) :
    c ∈ s.candidates q ↔ s.eligible c.x.bay = some c.x ∧ s.groupOf q c.x = some c.group := by
  unfold State.candidates
  rw [List.mem_filterMap]
  constructor
  · rintro ⟨x, eligible, grouped⟩
    obtain ⟨group, isGroup, rfl⟩ := Option.map_eq_some_iff.mp grouped
    exact ⟨(mem_eligibles s x).mp eligible, isGroup⟩
  · rintro ⟨eligible, grouped⟩
    exact ⟨c.x, (mem_eligibles s c.x).mpr eligible, by rw [grouped]; rfl⟩

/-- A bay has one candidate. -/
theorem candidate_unique {s : State} {q : Word32} {c d : Candidate} (first : c ∈ s.candidates q)
    (second : d ∈ s.candidates q)
    (same : c.x.bay = d.x.bay) : c = d := by
  obtain ⟨eligible, grouped⟩ := (mem_candidates s q c).mp first
  obtain ⟨eligible', grouped'⟩ := (mem_candidates s q d).mp second
  rw [same, eligible'] at eligible
  obtain ⟨x, group⟩ := c
  cases eligible
  rw [grouped'] at grouped
  cases grouped
  rfl

theorem mem_ofGroup {cls : Fin 3} {group : Group} {l : List Candidate} {c : Candidate} :
    c ∈ ofGroup cls group l ↔ c ∈ l ∧ c.x.cls = cls ∧ c.group = group := by
  unfold ofGroup
  rw [List.mem_filter, decide_eq_true_iff]

/-- A due candidate is listed. -/
theorem listed_of_due {s : State} {q : Word32} {x : Eligible} (due : s.groupOf q x = some .due) :
    ∃ e ∈ s.ale.shedStack ++ s.ale.unlisted, e.bay = x.bay := by
  unfold State.groupOf at due
  split at due
  · cases due
  split at due
  next e listed =>
    exact ⟨e, List.mem_of_find?_eq_some listed, by simpa using List.find?_some listed⟩
  next => split at due <;> cases due

theorem mem_dueOrder (s : State) (q : Word32) (cls : Fin 3) (c : Candidate) :
    c ∈ s.dueOrder cls (s.candidates q) ↔ c ∈ ofGroup cls .due (s.candidates q) := by
  unfold State.dueOrder
  rw [List.mem_filterMap]
  constructor
  · rintro ⟨e, -, found⟩
    exact List.mem_of_find?_eq_some found
  · intro member
    obtain ⟨candidate, -, due⟩ := mem_ofGroup.mp member
    obtain ⟨e, listed, sameBay⟩ := listed_of_due (due ▸ ((mem_candidates s q c).mp candidate).2)
    refine ⟨e, listed, ?_⟩
    obtain ⟨d, found⟩ : ∃ d, (ofGroup cls .due (s.candidates q)).find? (fun d => d.x.bay = e.bay) = some d :=
      Option.isSome_iff_exists.mp (List.find?_isSome.mpr ⟨c, member, by simp [sameBay]⟩)
    have sameBay' : d.x.bay = e.bay := by simpa using List.find?_some found
    have candidate' := (mem_ofGroup.mp (List.mem_of_find?_eq_some found)).1
    rw [found, candidate_unique candidate candidate' (by rw [sameBay', sameBay])]

/-- The order of a class holds the class's candidates (R59). -/
theorem mem_classOrder (s : State) (q : Word32) (cls : Fin 3) (c : Candidate) :
    c ∈ s.classOrder (s.candidates q) cls ↔
      s.eligible c.x.bay = some c.x ∧ c.x.cls = cls ∧ s.groupOf q c.x = some c.group := by
  unfold State.classOrder
  rw [List.mem_append, List.mem_append, (sortBySeq_perm _).mem_iff, (sortBySeq_perm _).mem_iff, mem_dueOrder,
    mem_ofGroup, mem_ofGroup, mem_ofGroup, mem_candidates]
  cases c.group <;> simp <;> tauto

/-! ## The walk -/

/-- The floors of a run of candidates. -/
def floorsOf (l : List Candidate) : Nat := (l.map fun c => c.x.floor).sum

theorem walk_cons (pool margin f : Nat) (c : Candidate) (rest : List Candidate) : walk pool margin f (c :: rest) =
    if f + c.asks margin ≤ pool then
      ⟨c :: (walk pool margin (f + c.x.floor) rest).admitted, (walk pool margin (f + c.x.floor) rest).shed⟩
    else ⟨(walk pool margin f rest).admitted, c :: (walk pool margin f rest).shed⟩ := rfl

/-- Each candidate is admitted or shed. -/
theorem walk_perm (pool margin : Nat) (l : List Candidate) : ∀ f : Nat,
    ((walk pool margin f l).admitted ++ (walk pool margin f l).shed).Perm l := by
  induction l with
  | nil => intro f; exact .refl _
  | cons c rest ih =>
    intro f
    rw [walk_cons]
    split
    · exact (ih _).cons c
    · exact List.perm_middle.trans ((ih f).cons c)

theorem mem_of_admitted {pool margin f : Nat} {l : List Candidate} {c : Candidate}
    (admitted : c ∈ (walk pool margin f l).admitted) : c ∈ l :=
  (walk_perm pool margin l f).mem_iff.mp (List.mem_append_left _ admitted)

theorem floor_le_asks (margin : Nat) (c : Candidate) : c.x.floor ≤ c.asks margin := by
  unfold Candidate.asks
  cases c.group <;> simp

/-- The floors admitted fit into the pool (R60). -/
theorem walk_within {pool : Nat} (margin : Nat) (l : List Candidate) : ∀ {f : Nat}, f ≤ pool →
    f + floorsOf (walk pool margin f l).admitted ≤ pool := by
  induction l with
  | nil => intro f fits; exact fits
  | cons c rest ih =>
    intro f fits
    rw [walk_cons]
    split
    next asked =>
      have := ih (Nat.le_trans (Nat.add_le_add_left (floor_le_asks margin c) f) asked)
      simp only [floorsOf, List.map_cons, List.sum_cons] at this ⊢
      omega
    next => exact ih fits

/-! ## The level fill -/

theorem powerAt_cons (level : Nat) (x : Eligible) (l : List Eligible) :
    powerAt level (x :: l) = x.weight * min x.req level + powerAt level l := rfl

theorem powerAt_mono {low high : Nat} (le : low ≤ high) (l : List Eligible) : powerAt low l ≤ powerAt high l := by
  induction l with
  | nil => exact Nat.le_refl _
  | cons x rest ih =>
    rw [powerAt_cons, powerAt_cons]
    exact Nat.add_le_add (Nat.mul_le_mul_left _ (by omega)) ih

/-- The power at the lowest level is within the floors. -/
theorem powerAt_sixty_le (l : List Eligible) : powerAt 60 l ≤ (l.map Eligible.floor).sum := by
  induction l with
  | nil => exact Nat.le_refl _
  | cons x rest ih =>
    rw [powerAt_cons, List.map_cons, List.sum_cons, Eligible.floor, Nat.mul_comm]
    exact Nat.add_le_add (Nat.mul_le_mul_right _ (by omega)) ih

/-- The level is the highest that fits (R63). -/
theorem levelOf_eq {pool level : Nat} {l : List Eligible} (least : 60 ≤ level) (most : level ≤ 320)
    (fits : powerAt level l ≤ pool) (highest : level = 320 ∨ pool < powerAt (level + 1) l) :
      levelOf pool l = level := by
  have found : (List.range 261).find? ((fun c => decide (powerAt c l ≤ pool)) ∘ (320 - ·)) = some (320 - level) := by
    rw [List.find?_range_eq_some]
    refine ⟨?_, List.mem_range.mpr (by omega), fun j below => ?_⟩
    · simpa [show 320 - (320 - level) = level by omega] using fits
    · have larger := powerAt_mono (show level + 1 ≤ 320 - j by omega) l
      simp only [Function.comp, Bool.not_eq_true', decide_eq_false_iff_not]
      omega
  unfold levelOf levels
  rw [List.find?_map, found]
  simp only [Option.map_some, Option.getD_some]
  omega

/-- A level of 60 or more that fits, where 60 fits (R63). -/
theorem levelOf_fits {pool : Nat} {l : List Eligible} (sixty : powerAt 60 l ≤ pool) :
    60 ≤ levelOf pool l ∧ powerAt (levelOf pool l) l ≤ pool := by
  unfold levelOf
  cases found : levels.find? fun c => powerAt c l ≤ pool with
  | none => exact ⟨Nat.le_refl _, sixty⟩
  | some level =>
    obtain ⟨i, inside, rfl⟩ := List.mem_map.mp (List.mem_of_find?_eq_some found)
    have := List.mem_range.mp inside
    have fits : powerAt (320 - i) l ≤ pool := by simpa using List.find?_some found
    exact ⟨show 60 ≤ 320 - i by omega, fits⟩

theorem sixty_le_levelOf (pool : Nat) (l : List Eligible) : 60 ≤ levelOf pool l := by
  unfold levelOf
  cases found : levels.find? fun c => powerAt c l ≤ pool with
  | none => exact Nat.le_refl _
  | some level =>
    obtain ⟨i, inside, rfl⟩ := List.mem_map.mp (List.mem_of_find?_eq_some found)
    have := List.mem_range.mp inside
    exact show 60 ≤ 320 - i by omega

theorem powerOf_cons (g : Granted) (l : List Granted) : powerOf (g :: l) = g.grant * g.x.weight + powerOf l := rfl

theorem powerOf_append (l r : List Granted) : powerOf (l ++ r) = powerOf l + powerOf r := by
  simp [powerOf]

theorem powerOf_levelGrants (level : Nat) (l : List Eligible) : powerOf (levelGrants level l) = powerAt level l := by
  induction l with
  | nil => rfl
  | cons x rest ih =>
    rw [powerAt_cons, ← ih, Nat.mul_comm]
    rfl

theorem remainderPass_cons (left : Nat) (g : Granted) (rest : List Granted) : remainderPass left (g :: rest) =
    if g.grant < g.x.req ∧ g.x.weight ≤ left then
      { g with grant := g.grant + 1 } :: remainderPass (left - g.x.weight) rest
    else g :: remainderPass left rest := rfl

theorem remainderPass_bays (l : List Granted) : ∀ left : Nat, (remainderPass left l).map (·.x) = l.map (·.x) := by
  induction l with
  | nil => intro left; rfl
  | cons g rest ih =>
    intro left
    rw [remainderPass_cons]
    split
    · exact congrArg (g.x :: ·) (ih _)
    · exact congrArg (g.x :: ·) (ih _)

/-- The remainder pass gives no more than the leftover (R64). -/
theorem powerOf_remainderPass (l : List Granted) : ∀ left : Nat, powerOf (remainderPass left l) ≤ powerOf l + left := by
  induction l with
  | nil => intro left; exact Nat.zero_le _
  | cons g rest ih =>
    intro left
    rw [remainderPass_cons]
    split
    next room =>
      have := ih (left - g.x.weight)
      rw [powerOf_cons, powerOf_cons]
      dsimp only
      rw [Nat.add_mul, Nat.one_mul]
      omega
    next =>
      have := ih left
      rw [powerOf_cons, powerOf_cons]
      omega

theorem mem_remainderPass (l : List Granted) : ∀ {left : Nat} {z : Granted}, z ∈ remainderPass left l →
    ∃ y ∈ l, z.x = y.x ∧ y.grant ≤ z.grant ∧ (y.grant ≤ y.x.req → z.grant ≤ y.x.req) := by
  induction l with
  | nil => nofun
  | cons g rest ih =>
    intro left z member
    rw [remainderPass_cons] at member
    split at member
    next room =>
      obtain rfl | later := List.mem_cons.mp member
      · exact ⟨g, List.mem_cons_self, rfl, Nat.le_succ _, fun _ => room.1⟩
      · obtain ⟨y, held, rest⟩ := ih later
        exact ⟨y, List.mem_cons_of_mem _ held, rest⟩
    next =>
      obtain rfl | later := List.mem_cons.mp member
      · exact ⟨z, List.mem_cons_self, rfl, Nat.le_refl _, id⟩
      · obtain ⟨y, held, rest⟩ := ih later
        exact ⟨y, List.mem_cons_of_mem _ held, rest⟩

theorem fill_bays (pool : Nat) (l : List Eligible) : (fill pool l).map (·.x) = l := by
  refine (remainderPass_bays ..).trans ?_
  unfold levelGrants
  rw [List.map_map]
  exact List.map_id l

/-- A fill stays within its pool where the floors do (R63, R64). -/
theorem powerOf_fill {pool : Nat} {l : List Eligible} (floors : (l.map Eligible.floor).sum ≤ pool) :
    powerOf (fill pool l) ≤ pool := by
  have fits := (levelOf_fits (Nat.le_trans (powerAt_sixty_le l) floors)).2
  have := powerOf_remainderPass (levelGrants (levelOf pool l) l) (pool - powerOf (levelGrants (levelOf pool l) l))
  rw [powerOf_levelGrants] at this
  unfold fill
  dsimp only
  rw [powerOf_levelGrants]
  omega

/-- A grant is at most its request, and at least the lesser of it and 60 dA (R63, R64). -/
theorem mem_fill {pool : Nat} {l : List Eligible} {z : Granted} (member : z ∈ fill pool l) :
    z.x ∈ l ∧ z.grant ≤ z.x.req ∧ min z.x.req 60 ≤ z.grant := by
  obtain ⟨y, held, same, raised, bounded⟩ := mem_remainderPass _ member
  obtain ⟨x, inside, rfl⟩ := List.mem_map.mp held
  have sixty := sixty_le_levelOf pool l
  dsimp only at same raised bounded
  rw [same]
  exact ⟨inside, bounded (by omega), by omega⟩

/-! ## The allotment -/

/-- The floors of a run of bays. -/
def floorSum (l : List Eligible) : Nat := (l.map Eligible.floor).sum

theorem floorSum_filter_cons (p : Candidate → Bool) (c : Candidate) (rest : List Candidate) :
    floorSum (((c :: rest).filter p).map Candidate.x) =
      (if p c then c.x.floor else 0) + floorSum ((rest.filter p).map Candidate.x) := by
  rw [List.filter_cons]
  split
  · rfl
  · rw [Nat.zero_add]

/-- The floors of two classes are among those admitted. -/
theorem floorSum_two_le {i j : Fin 3} (other : i ≠ j) (l : List Candidate) :
    floorSum ((l.filter fun c => c.x.cls = i).map Candidate.x) +
      floorSum ((l.filter fun c => c.x.cls = j).map Candidate.x) ≤ floorsOf l := by
  induction l with
  | nil => exact Nat.le_refl _
  | cons c rest ih =>
    rw [floorSum_filter_cons, floorSum_filter_cons, floorsOf, List.map_cons, List.sum_cons, ← floorsOf]
    by_cases first : c.x.cls = i
    · have second : c.x.cls ≠ j := fun same => other (first.symm.trans same)
      simp only [first, decide_true, if_true, other, decide_false] at ih ⊢
      simp only [Bool.false_eq_true, if_false]
      omega
    · simp only [first, decide_false, Bool.false_eq_true, if_false]
      split <;> omega

/-- The fills of classes 0 and 1 stay within the pool of their walk (R62). -/
theorem powerOf_fill01 {w : Walk} {pool : Nat} (within : floorsOf w.admitted ≤ pool) :
    powerOf (w.fill01 pool) ≤ pool := by
  have both : floorSum (w.ofClass 0) + floorSum (w.ofClass 1) ≤ floorsOf w.admitted :=
    floorSum_two_le (by decide) w.admitted
  have zero : powerOf (fill (pool - floorSum (w.ofClass 1)) (w.ofClass 0)) ≤ pool - floorSum (w.ofClass 1) :=
    powerOf_fill (show floorSum (w.ofClass 0) ≤ _ by omega)
  change powerOf (fill (pool - floorSum (w.ofClass 1)) (w.ofClass 0) ++ fill (pool - powerOf
    (fill (pool - floorSum (w.ofClass 1)) (w.ofClass 0))) (w.ofClass 1)) ≤ pool
  generalize fill (pool - floorSum (w.ofClass 1)) (w.ofClass 0) = filled at zero ⊢
  have one : powerOf (fill (pool - powerOf filled) (w.ofClass 1)) ≤ pool - powerOf filled :=
    powerOf_fill (show floorSum (w.ofClass 1) ≤ _ by omega)
  rw [powerOf_append]
  omega

theorem powerOf_fill2 {w : Walk} {pool : Nat} (within : floorsOf w.admitted ≤ pool) :
    powerOf (w.fill2 pool) ≤ pool := by
  have both : floorSum (w.ofClass 2) + floorSum (w.ofClass 1) ≤ floorsOf w.admitted :=
    floorSum_two_le (by decide) w.admitted
  exact powerOf_fill (show floorSum (w.ofClass 2) ≤ pool by omega)

theorem mem_ofClass {w : Walk} {cls : Fin 3} {x : Eligible} :
    x ∈ w.ofClass cls ↔ ∃ c ∈ w.admitted, c.x.cls = cls ∧ c.x = x := by
  unfold Walk.ofClass
  simp [List.mem_map, and_assoc]

theorem mem_fill01 {w : Walk} {pool : Nat} {z : Granted} (member : z ∈ w.fill01 pool) :
    (∃ c ∈ w.admitted, c.x = z.x) ∧ z.x.cls ≠ 2 ∧ z.grant ≤ z.x.req ∧ min z.x.req 60 ≤ z.grant := by
  obtain zero | one := List.mem_append.mp member
  · obtain ⟨filled, bounds⟩ := mem_fill zero
    obtain ⟨c, admitted, isClass, same⟩ := mem_ofClass.mp filled
    exact ⟨⟨c, admitted, same⟩, by rw [← same, isClass]; decide, bounds⟩
  · obtain ⟨filled, bounds⟩ := mem_fill one
    obtain ⟨c, admitted, isClass, same⟩ := mem_ofClass.mp filled
    exact ⟨⟨c, admitted, same⟩, by rw [← same, isClass]; decide, bounds⟩

theorem mem_fill2 {w : Walk} {pool : Nat} {z : Granted} (member : z ∈ w.fill2 pool) :
    (∃ c ∈ w.admitted, c.x = z.x) ∧ z.x.cls = 2 ∧ z.grant ≤ z.x.req ∧ min z.x.req 60 ≤ z.grant := by
  obtain ⟨filled, bounds⟩ := mem_fill member
  obtain ⟨c, admitted, isClass, same⟩ := mem_ofClass.mp filled
  exact ⟨⟨c, admitted, same⟩, by rw [← same, isClass], bounds⟩

/-- A bay granted is eligible, within its request, and at its floor where it asks that much (R57, R63). -/
theorem mem_granted {s : State} {m : MeasurementSet} {t : Terms} {z : Granted}
    (member : z ∈ (s.allot m t).granted01 ++ (s.allot m t).granted2) :
    s.eligible z.x.bay = some z.x ∧ z.grant ≤ z.x.req ∧ min z.x.req 60 ≤ z.grant := by
  have eligible : ∀ {cls : Fin 3} {c : Candidate}, c ∈ s.classOrder (s.candidates m.cycle) cls → c.x = z.x →
      s.eligible z.x.bay = some z.x := fun ordered same => same ▸ ((mem_classOrder ..).mp ordered).1
  obtain first | second := List.mem_append.mp member
  · obtain ⟨⟨c, admitted, same⟩, -, bounds⟩ := mem_fill01 first
    obtain zero | one := List.mem_append.mp (mem_of_admitted admitted)
    · exact ⟨eligible zero same, bounds⟩
    · exact ⟨eligible one same, bounds⟩
  · obtain ⟨⟨c, admitted, same⟩, -, bounds⟩ := mem_fill2 second
    exact ⟨eligible (mem_of_admitted admitted) same, bounds⟩

theorem granted01_cls {s : State} {m : MeasurementSet} {t : Terms} {z : Granted}
    (member : z ∈ (s.allot m t).granted01) :
    z.x.cls ≠ 2 := (mem_fill01 member).2.1

theorem granted2_cls {s : State} {m : MeasurementSet} {t : Terms} {z : Granted} (member : z ∈ (s.allot m t).granted2) :
    z.x.cls = 2 := (mem_fill2 member).2.1

/-! ## The grants of a grant set -/

theorem grantVector_get (l : List Granted) (b : BayId) :
    (grantVector l)[b.val] = ((l.find? fun g => g.x.bay = b).map (·.grant)).getD 0 := by
  unfold grantVector
  rw [Vector.getElem_ofFn]
  cases l.find? fun g => g.x.bay = b <;> rfl

/-- The grant a grant set takes for each bay of a run. -/
def firstGrants (all : List Granted) (l : List Eligible) : List Granted :=
  l.filterMap fun x => all.find? fun g => g.x.bay = x.bay

theorem bay_of_find {all : List Granted} {b : BayId} {z : Granted} (found : all.find? (fun g => g.x.bay = b) = some z) :
    z.x.bay = b := by simpa using List.find?_some found

theorem firstGrants_nodup {all : List Granted} {l : List Eligible} (once : (l.map (·.bay)).Nodup) :
    (firstGrants all l).Nodup := by
  refine List.pairwise_filterMap.mpr ((List.pairwise_map.mp once).imp fun {x y} apart z first z' second same => ?_)
  exact apart (by rw [← bay_of_find first, same, bay_of_find second])

theorem powerOf_firstGrants {all : List Granted} {l : List Eligible}
    (own : ∀ x ∈ l, ∀ z, all.find? (fun g => g.x.bay = x.bay) = some z → z.x = x) :
    powerOf (firstGrants all l) = (l.map fun x => (grantVector all)[x.bay.val] * x.weight).sum := by
  induction l with
  | nil => rfl
  | cons x rest ih =>
    rw [List.map_cons, List.sum_cons, ← ih fun y held => own y (List.mem_cons_of_mem _ held), firstGrants,
      List.filterMap_cons, grantVector_get]
    cases isFirst : all.find? fun g => g.x.bay = x.bay with
    | none => simp [firstGrants]
    | some z => simp [firstGrants, powerOf_cons, own x List.mem_cons_self z isFirst]

/-- The first grants of bays that are named once add up to no more than the grants they are among. -/
theorem sum_grants_le {all part : List Granted} {l : List Eligible} (once : (l.map (·.bay)).Nodup)
    (own : ∀ x ∈ l, ∀ z, all.find? (fun g => g.x.bay = x.bay) = some z → z.x = x ∧ z ∈ part) :
    (l.map fun x => (grantVector all)[x.bay.val] * x.weight).sum ≤ powerOf part := by
  have inside : firstGrants all l ⊆ part := fun z member => by
    obtain ⟨x, held, isFirst⟩ := List.mem_filterMap.mp member
    exact (own x held z isFirst).2
  obtain ⟨chosen, same, sub⟩ := List.subperm_of_subset (firstGrants_nodup once) inside
  rw [← powerOf_firstGrants fun x held z isFirst => (own x held z isFirst).1]
  unfold powerOf
  rw [← (same.map _).sum_eq]
  exact (sub.map _).sum_le_sum (by simp)

theorem eligibles_nodup (s : State) : (s.eligibles.map (·.bay)).Nodup := by
  unfold State.eligibles
  rw [List.Nodup, List.pairwise_map, List.pairwise_filterMap]
  refine (List.nodup_finRange 16).imp fun {b c} apart x first y second => ?_
  rw [bay_of_eligible first, bay_of_eligible second]
  exact apart

/-- The grant a grant set takes for an eligible bay is one of its own class group. -/
theorem find_granted {s : State} {m : MeasurementSet} {t : Terms} {x : Eligible} (eligible : s.eligible x.bay = some x)
    {z : Granted} (found : ((s.allot m t).granted01 ++ (s.allot m t).granted2).find?
      (fun g => g.x.bay = x.bay) = some z) :
    z.x = x ∧ (x.cls ≠ 2 → z ∈ (s.allot m t).granted01) ∧ (x.cls = 2 → z ∈ (s.allot m t).granted2) := by
  have member := List.mem_of_find?_eq_some found
  have isEligible := (mem_granted member).1
  rw [bay_of_find found, eligible] at isEligible
  have same : z.x = x := (Option.some.inj isEligible).symm
  refine ⟨same, fun low => ?_, fun high => ?_⟩
  · exact (List.mem_append.mp member).resolve_right fun second => low (same ▸ granted2_cls second)
  · exact (List.mem_append.mp member).resolve_left fun first => granted01_cls first (same ▸ high)

theorem grant_of_eligible {s : State} {m : MeasurementSet} {t : Terms} {b : BayId} {x : Eligible}
    (eligible : s.eligible b = some x) {grant : Nat}
    (isGrant : (grantVector ((s.allot m t).granted01 ++ (s.allot m t).granted2))[b.val] = grant) :
    grant ≤ x.req ∧ (grant ≠ 0 → 60 ≤ x.req → 60 ≤ grant) := by
  have isBay := bay_of_eligible eligible
  rw [grantVector_get] at isGrant
  cases found : ((s.allot m t).granted01 ++ (s.allot m t).granted2).find? fun g => g.x.bay = b with
  | none =>
    rw [found] at isGrant
    subst isGrant
    exact ⟨Nat.zero_le _, fun nonzero => absurd rfl nonzero⟩
  | some z =>
    rw [found] at isGrant
    obtain ⟨-, most, least⟩ := mem_granted (List.mem_of_find?_eq_some found)
    obtain ⟨same, -⟩ := find_granted (x := x) (isBay.symm ▸ eligible) (isBay.symm ▸ found)
    rw [same] at most least
    subst isGrant
    exact ⟨most, fun _ large => by
      change 60 ≤ z.grant
      omega⟩

theorem grant_of_ineligible {s : State} {m : MeasurementSet} {t : Terms} {b : BayId}
    (ineligible : s.eligible b = none) :
    (grantVector ((s.allot m t).granted01 ++ (s.allot m t).granted2))[b.val] = 0 := by
  rw [grantVector_get]
  cases found : ((s.allot m t).granted01 ++ (s.allot m t).granted2).find? fun g => g.x.bay = b with
  | none => rfl
  | some z =>
    obtain ⟨eligible, -⟩ := mem_granted (List.mem_of_find?_eq_some found)
    rw [bay_of_find found, ineligible] at eligible
    cases eligible

theorem filter_eligibles_nodup (s : State) (p : Eligible → Bool) : ((s.eligibles.filter p).map (·.bay)).Nodup :=
  (eligibles_nodup s).sublist (List.filter_sublist.map _)

/-- Settles O52: the floors taken by the walks fit, and the fills stay within what fits. -/
theorem grantsStayWithinThePools : Obligations.GrantsStayWithinThePools := by
  rintro s m g isSet
  have grants : g.grants = grantVector ((s.allot m (s.terms m)).granted01 ++ (s.allot m (s.terms m)).granted2) := by
    rw [isSet]
    rfl
  have power01 : g.granted01 = powerOf (s.allot m (s.terms m)).granted01 := by rw [isSet]; rfl
  have power2 : g.granted2 = powerOf (s.allot m (s.terms m)).granted2 := by rw [isSet]; rfl
  rw [grants, power01, power2]
  refine ⟨?_, ?_, sum_grants_le (filter_eligibles_nodup s _) fun x held z found => ?_,
    sum_grants_le (filter_eligibles_nodup s _) fun x held z found => ?_,
    fun b => ⟨grant_of_ineligible, fun x eligible => grant_of_eligible eligible rfl⟩⟩
  · rw [isSet]
    have within := walk_within (pool := (s.terms m).pool01) s.settings.restoreMargin
      (s.classOrder (s.candidates m.cycle) 0 ++ s.classOrder (s.candidates m.cycle) 1) (Nat.zero_le _)
    rw [Nat.zero_add] at within
    exact powerOf_fill01 within
  · rw [isSet]
    have within := walk_within (pool := (s.allot m (s.terms m)).pool2) s.settings.restoreMargin
      (s.classOrder (s.candidates m.cycle) 2) (Nat.zero_le _)
    rw [Nat.zero_add] at within
    exact powerOf_fill2 within
  · obtain ⟨member, low⟩ := List.mem_filter.mp held
    obtain ⟨same, first, -⟩ := find_granted ((mem_eligibles s x).mp member) found
    exact ⟨same, first (of_decide_eq_true low)⟩
  · obtain ⟨member, high⟩ := List.mem_filter.mp held
    obtain ⟨same, -, second⟩ := find_granted ((mem_eligibles s x).mp member) found
    exact ⟨same, second (of_decide_eq_true high)⟩

end Sys2Proof.Machine
end

section
/-! PROOFS: what an allocation installs and tells (R39, R44–R56, R72, R93). -/

namespace Sys2Proof.Machine

/-! ## The charge states of a GRANT_SET event -/

theorem chargeOf_congr {s t : State} {g : Record} (bays : t.bay g.bay = s.bay g.bay) : t.chargeOf g = s.chargeOf g := by
  unfold State.chargeOf
  rw [bays]

/-- A record after a GRANT_SET event (R93). -/
def State.refreshed (s : State) (g : Record) : Record :=
  if g.state = .active then { g with charge := s.chargeOf g } else g

/-- Whether a GRANT_SET event changes a record's charge state (R93). -/
def State.recharges (s : State) (r : RecordId) : Bool :=
  (s.record r).state = .active ∧ s.chargeOf (s.record r) ≠ (s.record r).charge

/-- The notice of a record whose charge state changes (R93). -/
def State.chargeNotice (s : State) (r : RecordId) : Notice :=
  .session (.chargeState r (s.record r).bay (s.chargeOf (s.record r)) (s.bay (s.record r).bay).lastGrant)

theorem refreshRecord_of_recharges {s : State} {r : RecordId} (changes : s.recharges r = true) :
    s.refreshRecord r =
      (s.modRecord r fun g => { g with charge := s.chargeOf g }).notify (s.chargeNotice r) :=
  if_pos (of_decide_eq_true changes)

theorem refreshRecord_of_same {s : State} {r : RecordId} (same : s.recharges r = false) : s.refreshRecord r = s :=
  if_neg (of_decide_eq_false same)

theorem refreshed_of_same {s : State} {r : RecordId} (same : s.recharges r = false) :
    s.refreshed (s.record r) = s.record r := by
  unfold State.refreshed
  split
  next active =>
    have kept : s.chargeOf (s.record r) = (s.record r).charge := by
      by_contra other
      exact of_decide_eq_false same ⟨active, other⟩
    rw [kept]
  next => rfl

theorem refreshed_of_recharges {s : State} {r : RecordId} (changes : s.recharges r = true) :
    s.refreshed (s.record r) = { s.record r with charge := s.chargeOf (s.record r) } :=
  if_pos (of_decide_eq_true changes).1

theorem refreshRecord_frame (s : State) (r : RecordId) :
    s.refreshRecord r = { s with ssm := { s.ssm with records := (s.refreshRecord r).ssm.records }, mpt :=
      (s.refreshRecord r).mpt } := by
  cases changes : s.recharges r with
  | true =>
    rw [refreshRecord_of_recharges changes, notify_frame]
    rfl
  | false => rw [refreshRecord_of_same changes]

theorem bay_refreshRecord (s : State) (r : RecordId) (b : BayId) : (s.refreshRecord r).bay b = s.bay b := by
  rw [refreshRecord_frame]
  rfl

theorem record_refreshRecord (s : State) (r q : RecordId) :
    (s.refreshRecord r).record q = if q = r then s.refreshed (s.record q) else s.record q := by
  cases changes : s.recharges r with
  | true =>
    rw [refreshRecord_of_recharges changes, record_notify, record_modRecord]
    split
    next same => rw [same, refreshed_of_recharges changes]
    next => rfl
  | false =>
    rw [refreshRecord_of_same changes]
    split
    next same => rw [same, refreshed_of_same changes]
    next => rfl

theorem refreshed_congr {s t : State} (bays : ∀ b, t.bay b = s.bay b) (g : Record) : t.refreshed g = s.refreshed g := by
  unfold State.refreshed
  rw [chargeOf_congr (bays _)]

theorem refreshAll_frame (l : List RecordId) : ∀ s : State, ∃ R M,
    l.foldl (fun t r => t.refreshRecord r) s = { s with ssm := { s.ssm with records := R }, mpt := M } := by
  induction l with
  | nil => exact fun s => ⟨s.ssm.records, s.mpt, rfl⟩
  | cons r rest ih =>
    intro s
    obtain ⟨R, M, later⟩ := ih (s.refreshRecord r)
    refine ⟨R, M, ?_⟩
    rw [List.foldl_cons, later, refreshRecord_frame]

theorem record_refreshAll {l : List RecordId} (once : l.Nodup) (q : RecordId) : ∀ s : State,
    (l.foldl (fun t r => t.refreshRecord r) s).record q = if q ∈ l then s.refreshed (s.record q) else s.record q := by
  induction l with
  | nil => exact fun s => rfl
  | cons r rest ih =>
    intro s
    obtain ⟨apart, later⟩ := List.nodup_cons.mp once
    rw [List.foldl_cons, ih later, record_refreshRecord, refreshed_congr (bay_refreshRecord s r)]
    by_cases first : q = r
    · subst first
      rw [if_neg apart, if_pos rfl, if_pos List.mem_cons_self]
    · simp only [List.mem_cons, first, false_or, if_false]

/-- The notices of charge states that change, in this order of records. -/
def State.tellCharges (s : State) (l : List RecordId) (u : State) : State :=
  (l.filter s.recharges).foldl (fun u r => u.notify (s.chargeNotice r)) u

theorem tellCharges_cons (s : State) (r : RecordId) (rest : List RecordId) (u : State) : s.tellCharges (r :: rest) u =
    s.tellCharges rest (if s.recharges r then u.notify (s.chargeNotice r) else u) := by
  unfold State.tellCharges
  rw [List.filter_cons]
  split <;> rfl

theorem tellCharges_congr {s t : State} {l : List RecordId} (bays : ∀ b, t.bay b = s.bay b)
    (records : ∀ r ∈ l, t.record r = s.record r) (u : State) : t.tellCharges l u = s.tellCharges l u := by
  induction l generalizing u with
  | nil => rfl
  | cons r rest ih =>
    have same := records r List.mem_cons_self
    have charge : t.chargeOf (t.record r) = s.chargeOf (s.record r) := by rw [same, chargeOf_congr (bays _)]
    have changes : t.recharges r = s.recharges r := by
      unfold State.recharges
      rw [charge, same]
    have notice : t.chargeNotice r = s.chargeNotice r := by
      unfold State.chargeNotice
      rw [charge, same, bays]
    rw [tellCharges_cons, tellCharges_cons, changes, notice,
      ih fun q held => records q (List.mem_cons_of_mem _ held)]

theorem tellCharges_mpt_congr {s u v : State} (l : List RecordId) (ports : v.mpt = u.mpt)
    (settings : v.settings = u.settings)
    (now : v.now = u.now) : (s.tellCharges l v).mpt = (s.tellCharges l u).mpt := by
  induction l generalizing u v with
  | nil => exact ports
  | cons r rest ih =>
    rw [tellCharges_cons, tellCharges_cons]
    split
    · exact ih (notify_mpt_congr ports settings now _) (by simp [settings]) (by simp [now])
    · exact ih ports settings now

theorem refreshRecord_ports (s : State) (r : RecordId) :
    (s.refreshRecord r).mpt = (if s.recharges r then s.notify (s.chargeNotice r) else s).mpt := by
  cases changes : s.recharges r with
  | true =>
    rw [refreshRecord_of_recharges changes, if_pos rfl]
    exact notify_mpt_congr (by rfl) (by rfl) (by rfl) _
  | false =>
    rw [refreshRecord_of_same changes, if_neg (by decide)]

theorem refreshAll_ports {l : List RecordId} (once : l.Nodup) : ∀ s : State,
    (l.foldl (fun t r => t.refreshRecord r) s).mpt = (s.tellCharges l s).mpt := by
  induction l with
  | nil => exact fun s => rfl
  | cons r rest ih =>
    intro s
    obtain ⟨apart, later⟩ := List.nodup_cons.mp once
    have others : ∀ q ∈ rest, (s.refreshRecord r).record q = s.record q := fun q held => by
      rw [record_refreshRecord, if_neg (ne_of_mem_of_not_mem held apart)]
    rw [List.foldl_cons, ih later, tellCharges_congr (bay_refreshRecord s r) others, tellCharges_cons]
    refine tellCharges_mpt_congr rest (refreshRecord_ports s r) ?_ ?_
    · rw [refreshRecord_frame]
      split
      · rw [settings_notify]; rfl
      · rfl
    · rw [refreshRecord_frame]
      split
      · rw [now_notify]; rfl
      · rfl

theorem allRecords_nodup : allRecords.Nodup := List.nodup_finRange 32

theorem record_grantSetEvent (s : State) (r : RecordId) : s.grantSetEvent.record r = s.refreshed (s.record r) := by
  unfold State.grantSetEvent
  rw [record_refreshAll allRecords_nodup, if_pos (mem_allRecords r)]

theorem grantSetEvent_ports (s : State) : s.grantSetEvent.mpt = (s.tellCharges allRecords s).mpt :=
  refreshAll_ports allRecords_nodup s

theorem grantSetEvent_frame (s : State) :
    ∃ R M, s.grantSetEvent = { s with ssm := { s.ssm with records := R }, mpt := M } := refreshAll_frame allRecords s

/-- A record's charge state changes exactly when the event changes it. -/
theorem recharges_iff (s : State) (r : RecordId) :
    s.recharges r = true ↔ (s.grantSetEvent.record r).charge ≠ (s.record r).charge := by
  rw [record_grantSetEvent]
  cases changes : s.recharges r with
  | true =>
    rw [refreshed_of_recharges changes]
    exact ⟨fun _ => (of_decide_eq_true changes).2, fun _ => rfl⟩
  | false =>
    rw [refreshed_of_same changes]
    exact ⟨nofun, fun other => absurd rfl other⟩

theorem tellCharges_allRecords (s : State) : s.tellCharges allRecords s =
    (allRecords.filter fun r => (s.grantSetEvent.record r).charge ≠ (s.record r).charge).foldl
      (fun u r => u.notify (.session (.chargeState r (s.record r).bay (s.grantSetEvent.record r).charge
        (s.bay (s.record r).bay).lastGrant))) s := by
  have changed : allRecords.filter (fun r => (s.grantSetEvent.record r).charge ≠ (s.record r).charge) =
      allRecords.filter s.recharges :=
    List.filter_congr fun r _ => Bool.eq_iff_iff.mpr (decide_eq_true_iff.trans (recharges_iff s r).symm)
  rw [changed]
  refine List.foldl_ext _ _ _ fun u r held => ?_
  have changes := (List.mem_filter.mp held).2
  rw [record_grantSetEvent, refreshed_of_recharges changes]
  rfl

/-- The table of R93. -/
theorem chargeOf_table {s : State} {g : Record} {e : Bay} {recorded : Prop} (isBay : s.bay g.bay = e)
    (isRecorded : recorded ↔ e.recordedStart ≠ none ∧ e.recordedStart = g.startSeq) :
    (¬ recorded → e.lastStatus.vehicle ≠ .demanding → s.chargeOf g = .idle) ∧
    (¬ recorded → e.lastStatus.vehicle = .demanding → s.chargeOf g = .waiting) ∧
    (recorded → 0 < e.lastGrant → s.chargeOf g = .running) ∧
    (recorded → e.lastGrant = 0 → e.shedPlace ≠ .none → s.chargeOf g = .shed) ∧
    (recorded → e.lastGrant = 0 → e.shedPlace = .none → s.chargeOf g = .waiting) := by
  have absent : (e.recordedStart.isNone ∨ e.recordedStart ≠ g.startSeq) ↔ ¬ recorded := by
    rw [isRecorded, Option.isNone_iff_eq_none]
    tauto
  unfold State.chargeOf
  rw [isBay]
  dsimp only
  refine ⟨fun other still => ?_, fun other asks => ?_, fun own granted => ?_, fun own zero listed => ?_,
    fun own zero unlisted => ?_⟩
  · rw [if_pos (absent.mpr other), if_pos still]
  · rw [if_pos (absent.mpr other), if_neg (not_not.mpr asks)]
  · rw [if_neg fun h => absent.mp h own, if_pos granted]
  · rw [if_neg fun h => absent.mp h own, if_neg (by omega), if_pos listed]
  · rw [if_neg fun h => absent.mp h own, if_neg (by omega), if_neg (not_not.mpr unlisted)]

theorem grantSetEvent_spec {v w : State} (isAfter : w = v.grantSetEvent) :
    w = { v with ssm := { v.ssm with records := w.ssm.records }, mpt := w.mpt } ∧
    (∀ r : RecordId, (v.record r).state ≠ .active → w.record r = v.record r) ∧
    (∀ r : RecordId, (v.record r).state = .active →
      w.record r = { v.record r with charge := v.chargeOf (v.record r) }) ∧
    w.mpt =
      ((allRecords.filter fun r => (w.record r).charge ≠ (v.record r).charge).foldl
        (fun u r => u.notify (.session (.chargeState r (v.record r).bay (w.record r).charge
          (v.bay (v.record r).bay).lastGrant))) v).mpt := by
  have after : ∀ r, w.record r = v.refreshed (v.record r) := fun r => by rw [isAfter, record_grantSetEvent]
  refine ⟨?_, fun r other => (after r).trans (if_neg other), fun r active => (after r).trans (if_pos active), ?_⟩
  · obtain ⟨R, M, frame⟩ := grantSetEvent_frame v
    rw [isAfter, frame]
  · rw [isAfter, grantSetEvent_ports, tellCharges_allRecords]

/-! ## The alarms -/

/-- An allocation with the set `m` handed over: `w` is the state without it. -/
theorem exec_allocation {s w : State} {m : MeasurementSet} {rest : List MeasurementSet}
    (waiting : s.ale.inbox = m :: rest)
    (taken : w = { s with ale := { s.ale with inbox := rest } }) : exec .allocation s = .next (w.allocate m) := by
  subst taken
  change execAllocation s = _
  unfold execAllocation
  rw [waiting]

theorem terms_inbox (s : State) (l : List MeasurementSet) (m : MeasurementSet) :
    ({ s with ale := { s.ale with inbox := l } } : State).terms m = s.terms m := rfl

theorem candidates_inbox (s : State) (l : List MeasurementSet) (q : Word32) :
    ({ s with ale := { s.ale with inbox := l } } : State).candidates q = s.candidates q := rfl

theorem classOrder_inbox (s : State) (l : List MeasurementSet) (c : List Candidate) (cls : Fin 3) :
    ({ s with ale := { s.ale with inbox := l } } : State).classOrder c cls = s.classOrder c cls := rfl

theorem allot_inbox (s : State) (l : List MeasurementSet) (m : MeasurementSet) (t : Terms) :
    ({ s with ale := { s.ale with inbox := l } } : State).allot m t = s.allot m t := by
  unfold State.allot State.walk01 State.walk2
  simp only [candidates_inbox, classOrder_inbox]
  rfl

theorem newGrantSet_inbox (s : State) (l : List MeasurementSet) (m : MeasurementSet) :
    ({ s with ale := { s.ale with inbox := l } } : State).newGrantSet m = s.newGrantSet m := by
  unfold State.newGrantSet
  rw [terms_inbox, allot_inbox]
  rfl

theorem newShedding_inbox (s : State) (l : List MeasurementSet) (m : MeasurementSet) :
    ({ s with ale := { s.ale with inbox := l } } : State).newShedding m = s.newShedding m := by
  unfold State.newShedding
  rw [terms_inbox, allot_inbox]
  rfl

theorem alarmOf_inbox (s : State) (l : List MeasurementSet) (m : MeasurementSet) (t : Terms) :
    ({ s with ale := { s.ale with inbox := l } } : State).alarmOf m t = s.alarmOf m t := rfl

theorem allocate_of_alarm {s w : State} {m : MeasurementSet} {a : Option Alarm} (alarm : s.alarmOf m (s.terms m) = a)
    (taken : ∃ l, w = { s with ale := { s.ale with inbox := l } }) :
    w.allocate m = (w.installSet m).grantSetEvent.raiseAlarm a := by
  obtain ⟨l, rfl⟩ := taken
  rw [← alarm, ← alarmOf_inbox s l, ← terms_inbox s l]
  rfl

theorem alarmOf_lost {s : State} {m : MeasurementSet} {t : Terms} (lost : m.meterLost = true) :
    s.alarmOf m t = if s.ale.meterLostLatch then none else some (.meterLost m.cycle s.settings.fallbackPool) := by
  unfold State.alarmOf
  rw [lost, if_pos rfl]

theorem latch_live {s : State} {m : MeasurementSet} {t : Terms} (live : m.meterLost = false) :
    s.importLatchAfter m t = decide (t.base + t.maxDischarge < 0) := by
  unfold State.importLatchAfter
  rw [live, if_neg (by decide)]

theorem alarmOf_live {s : State} {m : MeasurementSet} {t : Terms} {before after : Bool} (live : m.meterLost = false)
    (isBefore : s.ale.importLatch = before) (isAfter : decide (t.base + t.maxDischarge < 0) = after) :
    (before = false → after = true → s.alarmOf m t =
      some (.importLimit m.cycle t.glim t.source t.shopLoad (-(t.base + t.maxDischarge)))) ∧
    (before = true → after = false → s.alarmOf m t = some (.importClear m.cycle)) ∧
    (before = after → s.alarmOf m t = none) := by
  unfold State.alarmOf
  rw [latch_live live, live, if_neg (by decide), isBefore, isAfter]
  refine ⟨?_, ?_, ?_⟩
  · rintro rfl rfl
    rfl
  · rintro rfl rfl
    rfl
  · rintro rfl
    cases before <;> rfl

/-- Settles O49: the records in ascending id, then the alarm of the latches. -/
theorem allocationTellsItsOutcome : Obligations.AllocationTellsItsOutcome := by
  refine ⟨fun v w isAfter => ?_, fun s v m rest g room waiting isSet isInstalled isRoom => ?_⟩
  · obtain ⟨frame, others, active, ports⟩ := grantSetEvent_spec isAfter
    refine ⟨frame, others, fun r g e recorded isRecord isActive isBay isRecorded => ?_, ports⟩
    have after := active r (isRecord ▸ isActive)
    rw [isRecord] at after
    rw [after]
    exact ⟨rfl, chargeOf_table isBay isRecorded⟩
  · obtain ⟨w, isTaken⟩ : ∃ w : State, w = { s with ale := { s.ale with inbox := rest } } := ⟨_, rfl⟩
    rw [← isTaken] at isInstalled
    have result : ∀ a, s.alarmOf m (s.terms m) = a → exec .allocation s = .next (v.grantSetEvent.raiseAlarm a) :=
      fun a alarm => by rw [exec_allocation waiting isTaken, allocate_of_alarm alarm ⟨rest, isTaken⟩, isInstalled]
    have isBase : (s.terms m).base + (s.terms m).maxDischarge = room := by
      rw [isRoom, isSet]
      rfl
    have lost : m.meterLost = true → s.alarmOf m (s.terms m) = _ := alarmOf_lost
    refine ⟨fun isLost latch => ?_, fun isLost latch => ?_, fun live latch short => ?_, fun live latch enough => ?_,
      fun live same => ?_⟩
    · rw [result _ (lost isLost), latch]
      rfl
    · rw [result _ (lost isLost), latch]
      rfl
    · rw [result _ ((alarmOf_live live latch (after := true) (by rw [isBase]; exact decide_eq_true short)).1 rfl rfl),
        isBase, isSet]
      rfl
    · rw [result _ ((alarmOf_live live latch (after := false)
        (by rw [isBase]; exact decide_eq_false (by omega))).2.1 rfl rfl)]
      rfl
    · rw [result _ ((alarmOf_live live rfl rfl).2.2 (by rw [isBase]; exact Bool.eq_iff_iff.mpr (by simpa using same)))]
      rfl

end Sys2Proof.Machine
end

section
/-! PROOFS: the grant set an allocation installs (R39–R56, R72). -/

namespace Sys2Proof.Machine

/-! ## What an allocation writes -/

theorem raiseAlarm_frame (s : State) (a : Option Alarm) : ∃ M, s.raiseAlarm a = { s with mpt := M } := by
  cases a with
  | none => exact ⟨s.mpt, rfl⟩
  | some a => exact ⟨_, notify_frame s (.alarm a)⟩

/-- An allocation writes the installed set, the charge states and the ports. -/
theorem allocate_frame (s : State) (m : MeasurementSet) : ∃ R M,
    s.allocate m = { s.installSet m with ssm := { s.ssm with records := R }, mpt := M } ∧
    ∀ r : RecordId, R[r.val] = (s.installSet m).refreshed (s.record r) := by
  obtain ⟨R, M, event⟩ := grantSetEvent_frame (s.installSet m)
  obtain ⟨N, alarm⟩ := raiseAlarm_frame (s.installSet m).grantSetEvent (s.alarmOf m (s.terms m))
  refine ⟨R, N, ?_, fun r => ?_⟩
  · unfold State.allocate
    rw [alarm, event]
    rfl
  · have after := record_grantSetEvent (s.installSet m) r
    rw [event] at after
    exact after

theorem installSet_eq (s : State) (m : MeasurementSet) : s.installSet m =
    { s.writeShedding (s.newShedding m) (s.newGrantSet m).grants with
      ale := { s.ale with
        current := some (s.newGrantSet m)
        previous := s.ale.current
        importLatch := (s.newGrantSet m).importLatch
        meterLostLatch := m.meterLost
        shedStack := (s.newShedding m).stack
        unlisted := (s.newShedding m).unlisted
        overflowCount := (s.newShedding m).overflow } } := rfl

theorem bay_installSet (s : State) (m : MeasurementSet) (b : BayId) : (s.installSet m).bay b =
    (s.bay b).setAllocation (s.newGrantSet m).grants[b.val] ((s.newShedding m).placeOf b)
      ((s.eligible b).map (·.seq)) :=
  BlockChange.bay_writeShedding s (s.newShedding m) (s.newGrantSet m).grants b

theorem refreshed_keeps (v : State) (g : Record) :
    v.refreshed g = { g with charge := (v.refreshed g).charge } ∧ (g.state ≠ .active → v.refreshed g = g) := by
  unfold State.refreshed
  split
  next active => exact ⟨rfl, fun other => absurd active other⟩
  next => exact ⟨rfl, fun _ => rfl⟩

theorem bay_allocate (s : State) (m : MeasurementSet) (b : BayId) : (s.allocate m).bay b =
    (s.bay b).setAllocation (s.newGrantSet m).grants[b.val] ((s.newShedding m).placeOf b)
      ((s.eligible b).map (·.seq)) := by
  obtain ⟨R, M, frame, -⟩ := allocate_frame s m
  rw [frame]
  exact bay_installSet s m b

theorem record_allocate (s : State) (m : MeasurementSet) (r : RecordId) :
    (s.allocate m).record r = (s.installSet m).refreshed (s.record r) := by
  obtain ⟨R, M, frame, records⟩ := allocate_frame s m
  rw [frame]
  exact records r

theorem eligible_inbox (s : State) (l : List MeasurementSet) (b : BayId) :
    ({ s with ale := { s.ale with inbox := l } } : State).eligible b = s.eligible b := rfl

/-- The state after the allocation of the oldest set waiting. -/
theorem allocation_writes {s : State} {m : MeasurementSet} {rest : List MeasurementSet}
    (waiting : s.ale.inbox = m :: rest) :
    ∃ t : State, exec .allocation s = .next t ∧
      t = { s with blc := t.blc, ale := t.ale, ssm := t.ssm, mpt := t.mpt } ∧
      t.ale =
        { inbox := rest
          current := some (s.newGrantSet m)
          previous := s.ale.current
          overlay := s.ale.overlay
          importLatch := (s.newGrantSet m).importLatch
          meterLostLatch := m.meterLost
          shedStack := (s.newShedding m).stack
          unlisted := (s.newShedding m).unlisted
          overflowCount := (s.newShedding m).overflow } ∧
      t.blc = { s.blc with bays := t.blc.bays } ∧
      (∀ b : BayId, t.bay b =
        (s.bay b).setAllocation (s.newGrantSet m).grants[b.val] ((s.newShedding m).placeOf b)
          ((s.eligible b).map (·.seq))) ∧
      t.ssm = { s.ssm with records := t.ssm.records } ∧
      (∀ r : RecordId, t.record r = { s.record r with charge := (t.record r).charge } ∧
        ((s.record r).state ≠ .active → t.record r = s.record r)) := by
  obtain ⟨w, isTaken⟩ : ∃ w : State, w = { s with ale := { s.ale with inbox := rest } } := ⟨_, rfl⟩
  have isSet : w.newGrantSet m = s.newGrantSet m := by rw [isTaken, newGrantSet_inbox]
  have isShedding : w.newShedding m = s.newShedding m := by rw [isTaken, newShedding_inbox]
  obtain ⟨R, M, frame, records⟩ := allocate_frame w m
  have isBay : ∀ b, w.bay b = s.bay b := fun b => by rw [isTaken]; rfl
  have isRecord : ∀ r, w.record r = s.record r := fun r => by rw [isTaken]; rfl
  have isEligible : ∀ b, w.eligible b = s.eligible b := fun b => by rw [isTaken, eligible_inbox]
  rw [installSet_eq, isSet, isShedding] at frame
  refine ⟨w.allocate m, exec_allocation waiting isTaken, ?_, ?_, ?_, fun b => ?_, ?_, fun r => ?_⟩
  · rw [frame, isTaken]
    rfl
  · rw [frame, isTaken]
  · rw [frame, isTaken]
    rfl
  · rw [bay_allocate, isSet, isShedding, isBay, isEligible]
  · rw [frame, isTaken]
  · rw [record_allocate, isRecord]
    exact refreshed_keeps (w.installSet m) (s.record r)

/-! ## The budget's equations -/

theorem shopLoad_eq (m : MeasurementSet) (chargers : Nat) :
    (shopLoadOf m chargers : Int) = max 0 (min 2000000 (m.grid + m.solar + m.battery - chargers)) := by
  unfold shopLoadOf
  omega

theorem availableDischarge_eq (s : State) (m : MeasurementSet) : s.availableDischarge m =
    if m.lost[8] = true ∨ m.charge ≤ s.settings.reserveFloor then 0 else m.maxDischarge := by
  unfold State.availableDischarge MeasurementSet.batteryLost
  by_cases lost : m.lost[8] = true
  · simp [lost]
  · by_cases low : m.charge ≤ s.settings.reserveFloor <;> simp [lost, low]

theorem availableCharge_eq (s : State) (m : MeasurementSet) : s.availableCharge m =
    if m.lost[8] = true ∨ s.settings.chargeStop ≤ m.charge then 0 else m.maxCharge := by
  unfold State.availableCharge MeasurementSet.batteryLost
  by_cases lost : m.lost[8] = true
  · simp [lost]
  · by_cases high : s.settings.chargeStop ≤ m.charge <;> simp [lost, high]

theorem setpoint_eq (m : MeasurementSet) (discharge charge : Nat) :
    setpointOf m discharge charge = max (-(m.maxCharge : Int)) (min ((discharge : Int) - charge) m.maxDischarge) := by
  unfold setpointOf
  omega

/-- The shares of a split are in per mille of the power, and add up (R51). -/
theorem shares_eq (solar discharge power01 power2 : Nat) {w : Shares} (split : w = sourcesOf solar discharge
    power01 power2) :
    (sharesOf w power01).solar = (if power01 = 0 then 0 else 1000 * w.solar / power01) ∧
    (sharesOf w power01).battery = (if power01 = 0 then 0 else 1000 * w.battery / power01) ∧
    (sharesOf w power01).solar + (sharesOf w power01).battery + (sharesOf w power01).grid = 1000 := by
  have whole := split ▸ BlockChange.sharesOf_whole solar discharge power01 power2
  refine ⟨?_, ?_, whole⟩
  · unfold sharesOf
    split <;> rfl
  · unfold sharesOf
    split <;> rfl

theorem discharge_live {s : State} {m : MeasurementSet} (live : m.meterLost = false) :
    ((s.terms m).discharge : Int) =
      min ((s.terms m).maxDischarge : Int)
        (max 0 (((s.terms m).demand01 : Int) - ((s.terms m).headroom + m.solar))) := by
  have is : (s.terms m).discharge = dischargeOf (s.terms m).maxDischarge (s.terms m).demand01 (s.terms m).base :=
    if_neg (by rw [live]; decide)
  have base : (s.terms m).base = (s.terms m).headroom + m.solar := rfl
  rw [is, base]
  unfold dischargeOf
  omega

theorem pool01_live {s : State} {m : MeasurementSet} (live : m.meterLost = false) :
    ((s.terms m).pool01 : Int) = max 0 ((s.terms m).headroom + m.solar + (s.terms m).discharge) := by
  have is : (s.terms m).pool01 = ((s.terms m).base + (s.terms m).discharge).toNat := if_neg (by rw [live]; decide)
  have base : (s.terms m).base = (s.terms m).headroom + m.solar := rfl
  rw [is, base]
  omega

theorem plannedCharge_live {m : MeasurementSet} {t : Terms} {a : Allotment} (live : m.meterLost = false) :
    plannedCharge m t a =
      if t.discharge = 0 then min t.maxCharge (m.solar - t.shopLoad - a.power01 - a.power2) else 0 := by
  unfold plannedCharge
  rw [live]
  by_cases none : t.discharge = 0
  · rw [if_pos none, if_neg (by simp [none])]
  · rw [if_neg none, if_pos (Or.inr (Nat.pos_of_ne_zero none))]

/-- The terms of a grant set that admission and fill do not touch (R40–R47). -/
theorem terms_spec {s : State} {m : MeasurementSet} {t : Terms} (isTerms : s.terms m = t) :
    t.glim = ((s.ale.overlay.map (·.limit)).toList ++ s.guard.toList).foldl min s.settings.importLimit ∧
    t.chargers = ((allBays.filter fun b => (s.bay b).link = .online).map fun b => (s.bay b).lastPower).sum ∧
    (t.shopLoad : Int) = max 0 (min 2000000 (m.grid + m.solar + m.battery - t.chargers)) ∧
    t.headroom = (t.glim : Int) - s.settings.margin - t.shopLoad ∧ t.base = t.headroom + m.solar ∧
    t.maxDischarge = (if m.lost[8] = true ∨ m.charge ≤ s.settings.reserveFloor then 0 else m.maxDischarge) ∧
    t.maxCharge = (if m.lost[8] = true ∨ s.settings.chargeStop ≤ m.charge then 0 else m.maxCharge) := by
  subst isTerms
  exact ⟨effectiveLimit_value s, chargersPower_eq s, shopLoad_eq m _, rfl, rfl, availableDischarge_eq s m,
    availableCharge_eq s m⟩

/-- The terms of a grant set that follow admission and fill (R49–R51). -/
theorem formGrantSet_spec {s : State} {m : MeasurementSet} {t : Terms} {a : Allotment} {g : GrantSet}
    (isSet : g = s.formGrantSet m t a) :
    g.setpoint = max (-(m.maxCharge : Int)) (min ((g.discharge : Int) - g.charge) m.maxDischarge) ∧
    g.solar01 = min (m.solar - g.granted2) g.granted01 ∧
    g.battery01 = min g.discharge (g.granted01 - g.solar01) ∧
    g.grid01 = g.granted01 - g.solar01 - g.battery01 ∧
    g.shares01.solar = (if g.granted01 = 0 then 0 else 1000 * g.solar01 / g.granted01) ∧
    g.shares01.battery = (if g.granted01 = 0 then 0 else 1000 * g.battery01 / g.granted01) ∧
    g.shares01.solar + g.shares01.battery + g.shares01.grid = 1000 ∧ g.shares2 = ⟨1000, 0, 0⟩ := by
  subst isSet
  obtain ⟨solarShare, batteryShare, whole⟩ := shares_eq m.solar t.discharge a.power01 a.power2 rfl
  exact ⟨setpoint_eq m _ _, rfl, rfl, rfl, solarShare, batteryShare, whole, rfl⟩

theorem formGrantSet_live {s : State} {m : MeasurementSet} {t : Terms} {a : Allotment} {g : GrantSet}
    (live : m.meterLost = false) (isSet : g = s.formGrantSet m t a) :
    g.charge = (if g.discharge = 0 then min g.maxCharge (m.solar - g.shopLoad - g.granted01 - g.granted2) else 0) ∧
    g.exportPlanned = m.solar - g.shopLoad - g.granted01 - g.granted2 - g.charge ∧
    (g.importLatch = true ↔ t.base + t.maxDischarge < 0) := by
  subst isSet
  refine ⟨plannedCharge_live live, if_neg (by rw [live]; decide), ?_⟩
  have latch : (s.formGrantSet m t a).importLatch = decide (t.base + t.maxDischarge < 0) := latch_live live
  rw [latch, decide_eq_true_iff]

theorem formGrantSet_lost {s : State} {m : MeasurementSet} {t : Terms} {a : Allotment} {g : GrantSet}
    (lost : m.meterLost = true) (isSet : g = s.formGrantSet m t a) :
    g.charge = 0 ∧ g.exportPlanned = 0 ∧ g.importLatch = s.ale.importLatch := by
  subst isSet
  exact ⟨if_pos (Or.inl lost), if_pos lost, if_pos lost⟩

theorem pool2_eq {s : State} {m : MeasurementSet} {t : Terms} {a : Allotment} (isAllot : s.allot m t = a) :
    (m.meterLost = false → a.pool2 = m.solar - t.shopLoad - a.power01) ∧ (m.meterLost = true → a.pool2 = 0) := by
  subst isAllot
  exact ⟨fun live => if_neg (by rw [live]; decide), fun lost => if_pos lost⟩

/-- Settles O47: the writes of an allocation, and the terms of its grant set one by one. -/
theorem allocationFormsTheGrantSet : Obligations.AllocationFormsTheGrantSet := by
  refine ⟨fun s idle => ?_, fun s m rest waiting => ?_⟩
  · change execAllocation s = _
    unfold execAllocation
    rw [idle]
  · obtain ⟨t, done, frame, isAle, isBlc, bays, isSsm, records⟩ := allocation_writes waiting
    have isBay : ∀ b : BayId, t.bay b = { s.bay b with
        lastGrant := (s.newGrantSet m).grants[b.val]
        shedPlace := (t.bay b).shedPlace
        shedSince := (t.bay b).shedSince
        recordedStart := (s.eligible b).map (·.seq) } := fun b => by
      rw [bays b]
      rfl
    obtain ⟨x, isTerms⟩ : ∃ x, s.terms m = x := ⟨_, rfl⟩
    obtain ⟨a, isAllot⟩ : ∃ a, s.allot m x = a := ⟨_, rfl⟩
    have isSet : s.newGrantSet m = s.formGrantSet m x a := by rw [← isAllot, ← isTerms]; rfl
    refine ⟨t, s.newGrantSet m, s.newShedding m, done, rfl, rfl, frame, isAle, isBlc, isBay, isSsm, records, ?_⟩
    generalize s.newGrantSet m = g at isSet ⊢
    obtain ⟨glim, chargers, shopLoad, headroom, base, maxDischarge, maxCharge⟩ := terms_spec isTerms
    obtain ⟨poolLive, poolLost⟩ := pool2_eq isAllot
    have first : g.sequence = m.cycle ∧ g.glim = x.glim ∧ g.chargers = x.chargers ∧ g.shopLoad = x.shopLoad ∧
        g.headroom = x.headroom ∧ g.maxDischarge = x.maxDischarge ∧ g.maxCharge = x.maxCharge ∧
        g.demand01 = x.demand01 ∧ g.discharge = x.discharge ∧ g.pool01 = x.pool01 ∧ g.pool2 = a.pool2 ∧
        g.granted01 = a.power01 := by
      rw [isSet]
      exact ⟨rfl, rfl, rfl, rfl, rfl, rfl, rfl, rfl, rfl, rfl, rfl, rfl⟩
    obtain ⟨sequence, isGlim, isChargers, isLoad, isHeadroom, isMaxDischarge, isMaxCharge, isDemand,
      isDischarge, isPool,
      isPool2, isGranted⟩ := first
    obtain ⟨setpoint, solar, battery, grid, solarShare, batteryShare, whole, shares2⟩ := formGrantSet_spec isSet
    refine ⟨sequence, isGlim.trans glim, isChargers.trans chargers, ?_, ?_, isMaxDischarge.trans maxDischarge,
      isMaxCharge.trans maxCharge, setpoint, solar, battery, grid, solarShare, batteryShare, whole, shares2,
      fun live => ?_, fun lost => ?_⟩
    · rw [isLoad, isChargers, shopLoad]
    · rw [isHeadroom, isGlim, isLoad, headroom]
    · obtain ⟨charge, planned, latch⟩ := formGrantSet_live live isSet
      have discharge := isTerms ▸ discharge_live (s := s) live
      have pool := isTerms ▸ pool01_live (s := s) live
      rw [base] at latch
      rw [isDischarge, isMaxDischarge, isDemand, isHeadroom, isPool, isPool2, isLoad, isGranted]
      rw [isDischarge, isLoad, isGranted] at charge
      rw [isLoad, isGranted] at planned
      exact ⟨discharge, pool, poolLive live, charge, planned, latch⟩
    · obtain ⟨charge, planned, latch⟩ := formGrantSet_lost lost isSet
      rw [isDischarge, isPool, isPool2]
      refine ⟨?_, ?_, poolLost lost, charge, planned, latch⟩
      · rw [← isTerms]
        exact if_pos lost
      · rw [← isTerms]
        exact if_pos lost

end Sys2Proof.Machine
end

section
/-! PROOFS: groups, admission order, walks and fills (R58–R66). -/

namespace Sys2Proof.Machine

/-! ## Entries named once -/

/-- In a list that names each value once, the entry of a value is found. -/
theorem find?_of_once {α β : Type} [DecidableEq β] {f : α → β} {l : List α} (once : (l.map f).Nodup) {x : α}
    (held : x ∈ l) :
    l.find? (fun y => f y = f x) = some x := by
  induction l with
  | nil => cases held
  | cons y rest ih =>
    rw [List.map_cons, List.nodup_cons] at once
    obtain rfl | later := List.mem_cons.mp held
    · exact List.find?_cons_of_pos (by simp)
    · have apart : f y ≠ f x := fun same => once.1 (same ▸ List.mem_map_of_mem later)
      rw [List.find?_cons_of_neg (by simpa using apart), ih once.2 later]

/-- In a list that names each value once, entries stand at the places where their values are found. -/
theorem pairwise_findIdx {α β : Type} [DecidableEq β] {f : α → β} {l : List α} (once : (l.map f).Nodup) :
    l.Pairwise fun x y => (l.findIdx fun z => f z = f x) < l.findIdx fun z => f z = f y := by
  have place : ∀ (i : Nat) (inside : i < l.length), (l.findIdx fun z => f z = f l[i]) = i := fun i inside => by
    rw [List.findIdx_eq inside]
    refine ⟨by simp, fun j before => ?_⟩
    have apart : f l[j] ≠ f l[i] := fun same => by
      have equal := (List.Nodup.getElem_inj_iff once (hi := by simpa using Nat.lt_trans before inside)
        (hj := by simpa using inside)).mp (by simpa using same)
      omega
    simpa using apart
  rw [List.pairwise_iff_getElem]
  intro i j insideI insideJ before
  rw [place i insideI, place j insideJ]
  exact before

/-! ## Groups -/

theorem staleEntry_iff (s : State) (x : Eligible) : s.staleEntry x = false ↔
    (s.bay x.bay).recordedStart = none ∨ (s.bay x.bay).recordedStart = some x.seq := by
  unfold State.staleEntry
  cases (s.bay x.bay).recordedStart <;> simp

theorem groupOf_stale {s : State} {q : Word32} {x : Eligible} (stale : s.staleEntry x = true) :
    s.groupOf q x = some .others := if_pos stale

theorem groupOf_listed {s : State} {q : Word32} {x : Eligible} {e : ShedEntry} (own : s.staleEntry x = false)
    (listed : s.shedEntry x.bay = some e) :
    s.groupOf q x = if s.settings.shedHold ≤ (q - e.since).toNat then some .due else none := by
  unfold State.groupOf
  rw [own, if_neg (by decide), listed]

theorem groupOf_unlisted {s : State} {q : Word32} {x : Eligible} (own : s.staleEntry x = false)
    (unlisted : s.shedEntry x.bay = none) :
    s.groupOf q x = if 0 < s.currentGrant x.bay then some .running else some .others := by
  unfold State.groupOf
  rw [own, if_neg (by decide), unlisted]

theorem currentGrant_eq (s : State) (b : BayId) :
    s.currentGrant b = (s.ale.current.map fun g => g.grants[b.val]).getD 0 := by
  unfold State.currentGrant
  cases s.ale.current <;> rfl

theorem group_spec {s : State} {q : Word32} {x : Eligible} {listed : List ShedEntry} {own : Prop}
    (isListed : listed = s.ale.shedStack ++ s.ale.unlisted) (once : (listed.map (·.bay)).Nodup)
    (isOwn : own ↔ (s.bay x.bay).recordedStart = none ∨ (s.bay x.bay).recordedStart = some x.seq) :
    (¬ own → s.groupOf q x = some .others) ∧
    (∀ e ∈ listed, own → e.bay = x.bay →
      s.groupOf q x = if s.settings.shedHold ≤ (q - e.since).toNat then some .due else none) ∧
    (own → (∀ e ∈ listed, e.bay ≠ x.bay) →
      ((∃ g, s.ale.current = some g ∧ g.grants[x.bay.val] ≠ 0) → s.groupOf q x = some .running) ∧
      ((∀ g, s.ale.current = some g → g.grants[x.bay.val] = 0) → s.groupOf q x = some .others)) := by
  rw [← staleEntry_iff] at isOwn
  have entry : s.shedEntry x.bay = listed.find? fun e => e.bay = x.bay := by rw [isListed]; rfl
  refine ⟨fun other => groupOf_stale (by simpa [isOwn] using other), fun e held isMine isBay => ?_,
    fun isMine absent => ?_⟩
  · refine groupOf_listed (isOwn.mp isMine) ?_
    rw [entry, ← isBay]
    exact find?_of_once once held
  · have unlisted : s.shedEntry x.bay = none := by
      rw [entry, List.find?_eq_none]
      simpa using absent
    rw [groupOf_unlisted (isOwn.mp isMine) unlisted, currentGrant_eq]
    refine ⟨?_, fun zero => ?_⟩
    · rintro ⟨g, current, nonzero⟩
      rw [current]
      exact if_pos (Nat.pos_of_ne_zero nonzero)
    · refine if_neg ?_
      cases current : s.ale.current with
      | none => simp
      | some g => simp [zero g current]

/-! ## Admission order -/

theorem candidates_bays_nodup (s : State) (q : Word32) : ((s.candidates q).map (·.x.bay)).Nodup := by
  unfold State.candidates
  rw [List.Nodup, List.pairwise_map, List.pairwise_filterMap]
  refine (List.pairwise_map.mp (eligibles_nodup s)).imp fun {x y} apart c first d second => ?_
  obtain ⟨g, -, rfl⟩ := Option.map_eq_some_iff.mp first
  obtain ⟨h, -, rfl⟩ := Option.map_eq_some_iff.mp second
  exact apart

theorem ofGroup_bays_nodup (s : State) (q : Word32) (cls : Fin 3) (group : Group) :
    ((ofGroup cls group (s.candidates q)).map (·.x.bay)).Nodup :=
  (candidates_bays_nodup s q).sublist (List.filter_sublist.map _)

theorem bay_of_findCandidate {l : List Candidate} {b : BayId} {c : Candidate}
    (found : l.find? (fun c => c.x.bay = b) = some c) : c.x.bay = b := by simpa using List.find?_some found

theorem dueOrder_bays_nodup (s : State) (cls : Fin 3) (l : List Candidate)
    (once : ((s.ale.shedStack ++ s.ale.unlisted).map (·.bay)).Nodup) : ((s.dueOrder cls l).map (·.x.bay)).Nodup := by
  unfold State.dueOrder
  rw [List.Nodup, List.pairwise_map, List.pairwise_filterMap]
  refine (List.pairwise_map.mp once).imp fun {e f} apart c first d second => ?_
  rw [bay_of_findCandidate first, bay_of_findCandidate second]
  exact apart

/-- The due stand in the order of the stack and the unlisted set (R59). -/
theorem dueOrder_sorted (s : State) (cls : Fin 3) (l : List Candidate) {listed : List ShedEntry}
    (isListed : listed = s.ale.shedStack ++ s.ale.unlisted) (once : (listed.map (·.bay)).Nodup) :
    (s.dueOrder cls l).Pairwise fun c d =>
      (listed.findIdx fun e => e.bay = c.x.bay) < listed.findIdx fun e => e.bay = d.x.bay := by
  unfold State.dueOrder
  rw [← isListed, List.pairwise_filterMap]
  refine (pairwise_findIdx once).imp fun {e f} before c first d second => ?_
  rw [bay_of_findCandidate first, bay_of_findCandidate second]
  exact before

theorem group_of_mem_sort {cls : Fin 3} {group : Group} {l : List Candidate} {c : Candidate}
    (member : c ∈ sortBySeq (ofGroup cls group l)) : c ∈ l ∧ c.group = group := by
  obtain ⟨held, -, isGroup⟩ := mem_ofGroup.mp ((sortBySeq_perm _).mem_iff.mp member)
  exact ⟨held, isGroup⟩

theorem group_of_mem_due {s : State} {q : Word32} {cls : Fin 3} {c : Candidate}
    (member : c ∈ s.dueOrder cls (s.candidates q)) : c ∈ s.candidates q ∧ c.group = .due := by
  obtain ⟨held, -, isGroup⟩ := mem_ofGroup.mp ((mem_dueOrder s q cls c).mp member)
  exact ⟨held, isGroup⟩

/-- Two runs of candidates of different groups share no bay. -/
theorem bays_apart {s : State} {q : Word32} {c d : Candidate} (first : c ∈ s.candidates q) (second : d ∈ s.candidates q)
    (apart : c.group ≠ d.group) : c.x.bay ≠ d.x.bay :=
  fun same => apart (congrArg Candidate.group (candidate_unique first second same))

theorem sorted_bays_nodup (s : State) (q : Word32) (cls : Fin 3) (group : Group) :
    ((sortBySeq (ofGroup cls group (s.candidates q))).map (·.x.bay)).Nodup :=
  ((sortBySeq_perm _).map _).nodup_iff.mpr (ofGroup_bays_nodup s q cls group)

/-- A class's order names each bay once where no bay is listed twice (R59). -/
theorem classOrder_bays_nodup (s : State) (q : Word32) (cls : Fin 3)
    (once : ((s.ale.shedStack ++ s.ale.unlisted).map (·.bay)).Nodup) :
    ((s.classOrder (s.candidates q) cls).map (·.x.bay)).Nodup := by
  unfold State.classOrder
  rw [List.Nodup, List.pairwise_map, List.pairwise_append, List.pairwise_append]
  refine ⟨⟨List.pairwise_map.mp (sorted_bays_nodup s q cls .running),
    List.pairwise_map.mp (dueOrder_bays_nodup s cls _ once), fun c first d second => ?_⟩,
    List.pairwise_map.mp (sorted_bays_nodup s q cls .others), fun c first d second => ?_⟩
  · obtain ⟨held, isRunning⟩ := group_of_mem_sort first
    obtain ⟨held', isDue⟩ := group_of_mem_due second
    exact bays_apart held held' (by rw [isRunning, isDue]; decide)
  · obtain ⟨held', isOther⟩ := group_of_mem_sort second
    obtain run | due := List.mem_append.mp first
    · obtain ⟨held, isRunning⟩ := group_of_mem_sort run
      exact bays_apart held held' (by rw [isRunning, isOther]; decide)
    · obtain ⟨held, isDue⟩ := group_of_mem_due due
      exact bays_apart held held' (by rw [isDue, isOther]; decide)

/-- The order of R59: the running before the due before the others, each group in its own order. -/
def Precedes (place : Candidate → Nat) (c d : Candidate) : Prop :=
  c.group = .running ∧ d.group ≠ .running ∨ c.group = .due ∧ d.group = .others ∨
    c.group = d.group ∧ (c.group = .due → place c < place d) ∧ (c.group ≠ .due → c.x.seq.toNat ≤ d.x.seq.toNat)

theorem sorted_precedes (place : Candidate → Nat) {cls : Fin 3} {group : Group} (l : List Candidate)
    (other : group ≠ .due) :
    (sortBySeq (ofGroup cls group l)).Pairwise (Precedes place) := by
  refine (sortBySeq_sorted _).imp_of_mem fun {c d} first second before => ?_
  obtain ⟨-, isGroup⟩ := group_of_mem_sort first
  obtain ⟨-, isGroup'⟩ := group_of_mem_sort second
  exact .inr (.inr ⟨by rw [isGroup, isGroup'], fun due => absurd (isGroup.symm.trans due) other, fun _ => before⟩)

theorem classOrder_precedes (s : State) (q : Word32) (cls : Fin 3) {listed : List ShedEntry} {place : Candidate → Nat}
    (isListed : listed = s.ale.shedStack ++ s.ale.unlisted) (once : (listed.map (·.bay)).Nodup)
    (isPlace : ∀ c, place c = listed.findIdx fun e => e.bay = c.x.bay) :
    (s.classOrder (s.candidates q) cls).Pairwise (Precedes place) := by
  unfold State.classOrder
  rw [List.pairwise_append, List.pairwise_append]
  refine ⟨⟨sorted_precedes place _ (by decide), ?_, fun c first d second => ?_⟩, sorted_precedes place _ (by decide),
    fun c first d second => ?_⟩
  · refine (dueOrder_sorted s cls _ isListed once).imp_of_mem fun {c d} first second before => ?_
    obtain ⟨-, isDue⟩ := group_of_mem_due first
    obtain ⟨-, isDue'⟩ := group_of_mem_due second
    exact .inr (.inr ⟨by rw [isDue, isDue'], fun _ => by rw [isPlace, isPlace]; exact before,
      fun other => absurd isDue other⟩)
  · obtain ⟨-, isRunning⟩ := group_of_mem_sort first
    obtain ⟨-, isDue⟩ := group_of_mem_due second
    exact .inl ⟨isRunning, by rw [isDue]; decide⟩
  · obtain ⟨-, isOther⟩ := group_of_mem_sort second
    obtain run | due := List.mem_append.mp first
    · exact .inl ⟨(group_of_mem_sort run).2, by rw [isOther]; decide⟩
    · exact .inr (.inl ⟨(group_of_mem_due due).2, isOther⟩)

/-! ## The walk from its end -/

theorem asks_eq (margin : Nat) (c : Candidate) :
    c.asks margin = 60 * c.x.weight + if c.group = .due then margin else 0 := by
  unfold Candidate.asks Eligible.floor
  cases c.group <;> rfl

/-- A candidate is judged by the floors admitted before it (R60). -/
theorem walk_concat (pool margin : Nat) (c : Candidate) (before : List Candidate) : ∀ f : Nat,
    walk pool margin f (before ++ [c]) =
      if f + floorsOf (walk pool margin f before).admitted + c.asks margin ≤ pool
      then ⟨(walk pool margin f before).admitted ++ [c], (walk pool margin f before).shed⟩
      else ⟨(walk pool margin f before).admitted, (walk pool margin f before).shed ++ [c]⟩ := by
  induction before with
  | nil => exact fun f => rfl
  | cons d rest ih =>
    intro f
    rw [List.cons_append, walk_cons, walk_cons]
    by_cases room : f + d.asks margin ≤ pool
    · rw [if_pos room, if_pos room, ih]
      simp only [floorsOf, List.map_cons, List.sum_cons, Nat.add_assoc]
      split <;> rfl
    · rw [if_neg room, if_neg room, ih]
      split <;> rfl

theorem walk_admitted_sublist (pool margin : Nat) (l : List Candidate) : ∀ f : Nat,
    (walk pool margin f l).admitted.Sublist l := by
  induction l with
  | nil => exact fun f => List.Sublist.refl _
  | cons c rest ih =>
    intro f
    rw [walk_cons]
    split
    · exact (ih _).cons_cons c
    · exact (ih f).cons c

/-! ## The remainder pass place by place -/

/-- What a run of grants holds above the level grants. -/
def extraOf (level : Nat) (l : List Granted) : Nat := (l.map fun z => (z.grant - min z.x.req level) * z.x.weight).sum

/-- A bay gets one dA more where it asks for it and the leftover allows it (R64). -/
theorem remainderPass_grant (level : Nat) (l : List Eligible) : ∀ {left : Nat} {before : List Granted} {y : Granted}
    {after : List Granted}, remainderPass left (levelGrants level l) = before ++ y :: after →
    y.grant = min y.x.req level +
      if level < y.x.req ∧ extraOf level before + y.x.weight ≤ left then 1 else 0 := by
  induction l with
  | nil =>
    intro left before y after split
    exact absurd split.symm (by simp [levelGrants, remainderPass])
  | cons x rest ih =>
    intro left before y after split
    have below : min x.req level < x.req ↔ level < x.req := by omega
    have step := remainderPass_cons left ⟨x, min x.req level⟩ (levelGrants level rest)
    simp only [below] at step
    change remainderPass left (⟨x, min x.req level⟩ :: levelGrants level rest) = _ at split
    rw [step] at split
    by_cases raised : level < x.req ∧ x.weight ≤ left
    · rw [if_pos raised] at split
      cases before with
      | nil =>
        obtain ⟨rfl, -⟩ := List.cons.inj split
        rw [if_pos (by simpa [extraOf] using raised)]
      | cons z before =>
        obtain ⟨rfl, later⟩ := List.cons.inj split
        rw [ih later]
        have extra : extraOf level (⟨x, min x.req level + 1⟩ :: before) = x.weight + extraOf level before := by
          simp [extraOf]
        rw [extra]
        congr 2
        exact propext (and_congr_right fun _ => by omega)
    · rw [if_neg raised] at split
      cases before with
      | nil =>
        obtain ⟨rfl, -⟩ := List.cons.inj split
        rw [if_neg (by simpa [extraOf] using raised)]
        rfl
      | cons z before =>
        obtain ⟨rfl, later⟩ := List.cons.inj split
        rw [ih later]
        have extra : extraOf level (⟨x, min x.req level⟩ :: before) = extraOf level before := by
          simp [extraOf]
        rw [extra]

theorem powerAt_levelGrants {pool level : Nat} {l : List Eligible} (isLevel : levelOf pool l = level) :
    fill pool l = remainderPass (pool - powerAt level l) (levelGrants level l) := by
  unfold fill
  dsimp only
  rw [isLevel, powerOf_levelGrants]

/-- The highest level that fits, and then one dA more in order while the leftover allows it (R63, R64). -/
theorem fill_spec {pool level : Nat} {l : List Eligible} (least : 60 ≤ level) (most : level ≤ 320)
    (fits : powerAt level l ≤ pool) (highest : level = 320 ∨ pool < powerAt (level + 1) l) :
    (fill pool l).map (·.x) = l ∧
    ∀ before y after, fill pool l = before ++ y :: after →
      y.grant = min y.x.req level +
        if level < y.x.req ∧ powerAt level l + extraOf level before + y.x.weight ≤ pool then 1 else 0 := by
  refine ⟨fill_bays pool l, fun before y after split => ?_⟩
  rw [powerAt_levelGrants (levelOf_eq least most fits highest)] at split
  rw [remainderPass_grant level l split]
  congr 2
  exact propext (and_congr_right fun _ => by omega)

/-! ## The bays filled -/

theorem bays_nodup_append {α : Type} {f : α → Eligible} {l r : List α} (first : (l.map fun a => (f a).bay).Nodup)
    (second : (r.map fun a => (f a).bay).Nodup) (apart : ∀ a ∈ l, ∀ b ∈ r, (f a).bay ≠ (f b).bay) :
    ((l ++ r).map fun a => (f a).bay).Nodup := by
  rw [List.Nodup, List.pairwise_map, List.pairwise_append]
  exact ⟨List.pairwise_map.mp first, List.pairwise_map.mp second, apart⟩

/-- Eligible bays of other classes are other bays. -/
theorem bay_ne_of_cls {s : State} {x y : Eligible} (first : s.eligible x.bay = some x)
    (second : s.eligible y.bay = some y)
    (apart : x.cls ≠ y.cls) : x.bay ≠ y.bay := fun same => by
  rw [same, second] at first
  exact apart (congrArg Eligible.cls (Option.some.inj first)).symm

theorem ofClass_bays_nodup {pool margin f : Nat} {l : List Candidate} (cls : Fin 3) (once : (l.map (·.x.bay)).Nodup) :
    (((walk pool margin f l).ofClass cls).map (·.bay)).Nodup := by
  unfold Walk.ofClass
  rw [List.map_map]
  exact once.sublist ((List.filter_sublist.trans (walk_admitted_sublist pool margin l f)).map _)

theorem fill_bays_nodup {pool : Nat} {l : List Eligible} (once : (l.map (·.bay)).Nodup) :
    ((fill pool l).map (·.x.bay)).Nodup := by
  have bays : (fill pool l).map (·.x.bay) = l.map (·.bay) := by
    rw [← congrArg (List.map (·.bay)) (fill_bays pool l), List.map_map]
    rfl
  rw [bays]
  exact once

/-- The order of classes 0 and 1 names each bay once where no bay is listed twice. -/
theorem order01_bays_nodup (s : State) (q : Word32) (once : ((s.ale.shedStack ++ s.ale.unlisted).map (·.bay)).Nodup) :
    ((s.classOrder (s.candidates q) 0 ++ s.classOrder (s.candidates q) 1).map (·.x.bay)).Nodup :=
  bays_nodup_append (classOrder_bays_nodup s q 0 once) (classOrder_bays_nodup s q 1 once) fun c first d second => by
    obtain ⟨eligible, zero, -⟩ := (mem_classOrder ..).mp first
    obtain ⟨eligible', one, -⟩ := (mem_classOrder ..).mp second
    exact bay_ne_of_cls eligible eligible' (by rw [zero, one]; decide)

/-- The fills of an allocation name each bay once where no bay is listed twice. -/
theorem granted_bays_nodup {s : State} {m : MeasurementSet} {t : Terms}
    (once : ((s.ale.shedStack ++ s.ale.unlisted).map (·.bay)).Nodup) :
    (((s.allot m t).granted01 ++ (s.allot m t).granted2).map (·.x.bay)).Nodup := by
  refine bays_nodup_append (f := Granted.x)
    (bays_nodup_append (f := Granted.x) (fill_bays_nodup (ofClass_bays_nodup 0 (order01_bays_nodup s m.cycle once)))
      (fill_bays_nodup (ofClass_bays_nodup 1 (order01_bays_nodup s m.cycle once))) fun y first z second => ?_)
    (fill_bays_nodup (ofClass_bays_nodup 2 (classOrder_bays_nodup s m.cycle 2 once))) fun y first z second => ?_
  · obtain ⟨c, -, zero, isY⟩ := mem_ofClass.mp (mem_fill first).1
    obtain ⟨d, -, one, isZ⟩ := mem_ofClass.mp (mem_fill second).1
    have eligible := (mem_granted (s := s) (m := m) (t := t) (List.mem_append_left _ (List.mem_append_left _ first))).1
    have eligible' := (mem_granted (s := s) (m := m) (t := t)
      (List.mem_append_left _ (List.mem_append_right _ second))).1
    exact bay_ne_of_cls eligible eligible' (by rw [← isY, ← isZ, zero, one]; decide)
  · have eligible := (mem_granted (s := s) (m := m) (t := t) (List.mem_append_left _ first)).1
    have eligible' := (mem_granted (s := s) (m := m) (t := t) (List.mem_append_right _ second)).1
    exact bay_ne_of_cls eligible eligible' fun same => granted01_cls first (same.trans (granted2_cls second))

theorem grants_spec {all : List Granted} (once : (all.map (·.x.bay)).Nodup) :
    (∀ z ∈ all, (grantVector all)[z.x.bay.val] = z.grant) ∧
    ∀ b : BayId, (∀ z ∈ all, z.x.bay ≠ b) → (grantVector all)[b.val] = 0 := by
  refine ⟨fun z member => ?_, fun b absent => ?_⟩
  · rw [grantVector_get, find?_of_once once member]
    rfl
  · have missing : all.find? (fun g => g.x.bay = b) = none := by
      rw [List.find?_eq_none]
      simpa using absent
    rw [grantVector_get, missing]
    rfl

theorem allot_spec {s : State} {m : MeasurementSet} {t : Terms} {a : Allotment} (isAllot : a = s.allot m t) :
    a.first = walk t.pool01 s.settings.restoreMargin 0
      (s.classOrder (s.candidates m.cycle) 0 ++ s.classOrder (s.candidates m.cycle) 1) ∧
    a.second = walk a.pool2 s.settings.restoreMargin 0 (s.classOrder (s.candidates m.cycle) 2) ∧
    a.granted01 = a.first.fill01 t.pool01 ∧ a.granted2 = a.second.fill2 a.pool2 := by
  subst isAllot
  exact ⟨rfl, rfl, rfl, rfl⟩

/-- Class 2 is walked alone, so all it admitted is filled (R65). -/
theorem ofClass_of_all {w : Walk} {cls : Fin 3} (all : ∀ c ∈ w.admitted, c.x.cls = cls) :
    w.ofClass cls = w.admitted.map (·.x) := by
  unfold Walk.ofClass
  rw [List.filter_eq_self.mpr fun c held => decide_eq_true (all c held)]

/-- Settles O50: groups, order, walk and fill, each by its definition. -/
theorem admissionFollowsTheOrder : Obligations.AdmissionFollowsTheOrder := by
  refine ⟨fun s q x listed own isListed once isOwn => group_spec isListed once isOwn,
    fun s q cls listed order place isListed once isPlace isOrder => ?_, fun pool margin before c w isWalk => ?_,
    fun pool level l least most fits highest => ?_,
    fun s m g a order zero one filled isSet isAllot isOrder isZero isOne isFilled => ?_⟩
  · rw [isOrder]
    exact ⟨mem_classOrder s q cls, classOrder_bays_nodup s q cls (isListed ▸ once),
      classOrder_precedes s q cls isListed once isPlace⟩
  · refine ⟨rfl, ?_⟩
    rw [walk_concat, ← isWalk, asks_eq, Nat.zero_add, ← Nat.add_assoc]
    rfl
  · exact fill_spec least most fits highest
  · obtain ⟨x, isTerms⟩ : ∃ x, s.terms m = x := ⟨_, rfl⟩
    rw [isTerms] at isAllot
    have isForm : g = s.formGrantSet m x a := by rw [isSet, isAllot, ← isTerms]; rfl
    have pool01 : g.pool01 = x.pool01 := by rw [isForm]; rfl
    have pool2 : g.pool2 = a.pool2 := by rw [isForm]; rfl
    have grants : g.grants = grantVector (a.granted01 ++ a.granted2) := by rw [isForm]; rfl
    have powers : g.granted01 = powerOf a.granted01 ∧ g.granted2 = powerOf a.granted2 := by
      rw [isForm]
      exact ⟨rfl, rfl⟩
    obtain ⟨first, second, granted01, granted2⟩ := allot_spec isAllot
    have all : ∀ c ∈ a.second.admitted, c.x.cls = 2 := fun c held => by
      rw [second] at held
      exact ((mem_classOrder ..).mp (mem_of_admitted held)).2.1
    rw [pool01] at isFilled
    rw [isOrder, isOrder, isOrder, pool01, pool2, grants]
    refine ⟨first, second, ?_, ?_, powers.1, powers.2, fun once => ?_⟩
    · rw [granted01, isFilled, isZero, isOne]
      rfl
    · rw [granted2, ← ofClass_of_all all]
      rfl
    · rw [isAllot]
      exact grants_spec (granted_bays_nodup once)

end Sys2Proof.Machine
end

section
/-! PROOFS: the update of the shed stack and the places of the bays (R67–R72). -/

namespace Sys2Proof.Machine

/-! ## Moves to the unlisted set -/

theorem insertAll_perm (moved unlisted : List ShedEntry) : (moved.foldr insertUnlisted unlisted).Perm
    (moved ++ unlisted) := by
  induction moved with
  | nil => exact .refl _
  | cons e rest ih => exact (insertUnlisted_perm e _).trans (ih.cons e)

theorem insertAll_sorted (moved : List ShedEntry) {unlisted : List ShedEntry}
    (sorted : unlisted.Pairwise fun d e => d.bay ≤ e.bay) :
    (moved.foldr insertUnlisted unlisted).Pairwise fun d e => d.bay ≤ e.bay := by
  induction moved with
  | nil => exact sorted
  | cons e rest ih => exact insertUnlisted_sorted e _ ih

/-! ## One bay pushed -/

theorem push_room {depth : Nat} {policy : OverflowPolicy} {e : ShedEntry} {z : Shedding}
    (room : z.stack.length < depth) :
    z.push depth policy e = { z with stack := e :: z.stack } := if_pos room

theorem push_wrap {depth : Nat} {e : ShedEntry} {z : Shedding} (full : depth ≤ z.stack.length) :
    z.push depth .wrap e =
      ⟨e :: z.stack.dropLast, z.stack.getLast?.toList.foldr insertUnlisted z.unlisted, z.overflow + 1⟩ :=
  if_neg (Nat.not_lt.mpr full)

theorem push_freeze {depth : Nat} {e : ShedEntry} {z : Shedding} (full : depth ≤ z.stack.length) :
    z.push depth .freeze e = ⟨z.stack, insertUnlisted e z.unlisted, z.overflow + 1⟩ :=
  if_neg (Nat.not_lt.mpr full)

theorem dropLast_getLast_perm {α : Type} (l : List α) : (l.dropLast ++ l.getLast?.toList).Perm l := by
  obtain rfl | ⟨rest, last, rfl⟩ := List.eq_nil_or_concat' l
  · exact .refl _
  · rw [List.dropLast_concat, List.getLast?_concat]
    exact .refl _

/-- A push moves entries and loses none (R69). -/
theorem push_perm (depth : Nat) (policy : OverflowPolicy) (e : ShedEntry) (z : Shedding) :
    ((z.push depth policy e).stack ++ (z.push depth policy e).unlisted).Perm (e :: (z.stack ++ z.unlisted)) := by
  by_cases room : z.stack.length < depth
  · rw [push_room room]
    exact .refl _
  have full := Nat.not_lt.mp room
  cases policy with
  | wrap =>
    rw [push_wrap full]
    refine List.Perm.cons e ?_
    refine ((insertAll_perm z.stack.getLast?.toList z.unlisted).append_left z.stack.dropLast).trans ?_
    rw [← List.append_assoc]
    exact (dropLast_getLast_perm z.stack).append_right _
  | freeze =>
    rw [push_freeze full]
    exact ((insertUnlisted_perm e z.unlisted).append_left z.stack).trans List.perm_middle

theorem push_sorted {depth : Nat} {policy : OverflowPolicy} {e : ShedEntry} {z : Shedding}
    (sorted : z.unlisted.Pairwise fun d e => d.bay ≤ e.bay) :
    (z.push depth policy e).unlisted.Pairwise fun d e => d.bay ≤ e.bay := by
  by_cases room : z.stack.length < depth
  · rw [push_room room]
    exact sorted
  have full := Nat.not_lt.mp room
  cases policy with
  | wrap =>
    rw [push_wrap full]
    exact insertAll_sorted _ sorted
  | freeze =>
    rw [push_freeze full]
    exact insertUnlisted_sorted e _ sorted

/-! ## A run of bays pushed -/

/-- The newly shed are pushed, the last in admission order first (R69). -/
def Shedding.pushAll (depth : Nat) (policy : OverflowPolicy) (pushed : List ShedEntry) (z : Shedding) : Shedding :=
  pushed.foldr (fun e z => z.push depth policy e) z

theorem pushAll_cons (depth : Nat) (policy : OverflowPolicy) (e : ShedEntry) (rest : List ShedEntry) (z : Shedding) :
    z.pushAll depth policy (e :: rest) = (z.pushAll depth policy rest).push depth policy e := rfl

theorem pushAll_perm (depth : Nat) (policy : OverflowPolicy) (pushed : List ShedEntry) (z : Shedding) :
    ((z.pushAll depth policy pushed).stack ++ (z.pushAll depth policy pushed).unlisted).Perm
      (pushed ++ (z.stack ++ z.unlisted)) := by
  induction pushed with
  | nil => exact .refl _
  | cons e rest ih =>
    rw [pushAll_cons]
    exact (push_perm ..).trans (ih.cons e)

theorem pushAll_sorted {depth : Nat} {policy : OverflowPolicy} (pushed : List ShedEntry) {z : Shedding}
    (sorted : z.unlisted.Pairwise fun d e => d.bay ≤ e.bay) :
    (z.pushAll depth policy pushed).unlisted.Pairwise fun d e => d.bay ≤ e.bay := by
  induction pushed with
  | nil => exact sorted
  | cons e rest ih => exact push_sorted ih

theorem overflow_succ (overflow : Word32) (n : Nat) :
    overflow + BitVec.ofNat 32 n + 1 = overflow + BitVec.ofNat 32 (n + 1) := by
  rw [BitVec.ofNat_add, ← BitVec.add_assoc]
  rfl

/-- The last entry of a full stack leaves it when another is put on top. -/
theorem take_cons_of_full {α : Type} {depth : Nat} {e : α} {l : List α} (one : 1 ≤ depth) (full : depth ≤ l.length) :
    e :: (l.take depth).dropLast = (e :: l).take depth ∧
      (e :: l).drop depth = (l.take depth).getLast?.toList ++ l.drop depth := by
  obtain ⟨d, rfl⟩ : ∃ d, depth = d + 1 := ⟨depth - 1, by omega⟩
  have inside : d < l.length := full
  have taken : l.take (d + 1) = l.take d ++ [l[d]] := List.take_succ_eq_append_getElem inside
  rw [List.take_succ_cons, List.drop_succ_cons, List.drop_eq_getElem_cons inside, taken, List.dropLast_concat,
    List.getLast?_concat]
  exact ⟨rfl, rfl⟩

/-- WRAP: the entries past the depth leave at the bottom (R69). -/
theorem pushAll_wrap {depth : Nat} (one : 1 ≤ depth) (pushed : List ShedEntry) {z : Shedding}
    (within : z.stack.length ≤ depth) :
    (z.pushAll depth .wrap pushed).stack = (pushed ++ z.stack).take depth ∧
    (z.pushAll depth .wrap pushed).unlisted.Perm (z.unlisted ++ (pushed ++ z.stack).drop depth) ∧
    (z.pushAll depth .wrap pushed).overflow = z.overflow + BitVec.ofNat 32 ((pushed ++ z.stack).drop depth).length := by
  induction pushed with
  | nil =>
    rw [List.nil_append, List.drop_eq_nil_of_le within, List.take_of_length_le within, List.append_nil]
    exact ⟨rfl, .refl _, (BitVec.add_zero _).symm⟩
  | cons e rest ih =>
    obtain ⟨stack, unlisted, overflow⟩ := ih
    rw [pushAll_cons, List.cons_append]
    generalize z.pushAll depth .wrap rest = w at stack unlisted overflow ⊢
    generalize rest ++ z.stack = l at stack unlisted overflow ⊢
    have size : w.stack.length = min depth l.length := by rw [stack, List.length_take]
    by_cases room : w.stack.length < depth
    · have short : (e :: l).length ≤ depth := by
        rw [List.length_cons]
        omega
      have shorter : l.length ≤ depth := by omega
      rw [push_room room, stack]
      rw [List.drop_eq_nil_of_le shorter] at unlisted overflow
      change e :: l.take depth = (e :: l).take depth ∧ w.unlisted.Perm (z.unlisted ++ (e :: l).drop depth) ∧
        w.overflow = z.overflow + BitVec.ofNat 32 ((e :: l).drop depth).length
      rw [List.drop_eq_nil_of_le short, List.take_of_length_le short, List.take_of_length_le shorter]
      exact ⟨rfl, unlisted, overflow⟩
    · obtain ⟨top, bottom⟩ := take_cons_of_full (e := e) (l := l) one (by omega)
      have moved : (l.take depth).getLast?.toList.length = 1 := by
        rw [List.getLast?_eq_getElem?, List.length_take, List.getElem?_eq_getElem (by rw [List.length_take]; omega)]
        rfl
      rw [push_wrap (by omega), stack]
      change e :: (l.take depth).dropLast = (e :: l).take depth ∧
        ((l.take depth).getLast?.toList.foldr insertUnlisted w.unlisted).Perm (z.unlisted ++ (e :: l).drop depth) ∧
        w.overflow + 1 = z.overflow + BitVec.ofNat 32 ((e :: l).drop depth).length
      rw [bottom, List.length_append, moved, overflow, overflow_succ, Nat.add_comm 1]
      refine ⟨top, (insertAll_perm ..).trans ?_, rfl⟩
      refine (unlisted.append_left _).trans ?_
      rw [← List.append_assoc, ← List.append_assoc]
      exact List.perm_append_comm.append_right _

/-- FREEZE: the bays that find the stack full go to the unlisted set (R69). -/
theorem pushAll_freeze {depth : Nat} (pushed : List ShedEntry) {z : Shedding} {gone : Nat}
    (isGone : gone = pushed.length - (depth - z.stack.length)) (within : z.stack.length ≤ depth) :
    (z.pushAll depth .freeze pushed).stack = pushed.drop gone ++ z.stack ∧
    (z.pushAll depth .freeze pushed).unlisted.Perm (z.unlisted ++ pushed.take gone) ∧
    (z.pushAll depth .freeze pushed).overflow = z.overflow + BitVec.ofNat 32 gone := by
  induction pushed generalizing gone with
  | nil =>
    obtain rfl : gone = 0 := by simpa using isGone
    exact ⟨rfl, by rw [List.take_zero, List.append_nil]; exact .refl _, (BitVec.add_zero _).symm⟩
  | cons e rest ih =>
    obtain ⟨stack, unlisted, overflow⟩ := ih rfl
    rw [pushAll_cons]
    rw [List.length_cons] at isGone
    generalize z.pushAll depth .freeze rest = w at stack unlisted overflow ⊢
    have size : w.stack.length = rest.length - (rest.length - (depth - z.stack.length)) + z.stack.length := by
      rw [stack, List.length_append, List.length_drop]
    by_cases room : w.stack.length < depth
    · obtain rfl : gone = 0 := by omega
      have before : rest.length - (depth - z.stack.length) = 0 := by omega
      rw [before] at stack unlisted overflow
      rw [push_room room, stack]
      exact ⟨rfl, unlisted, overflow⟩
    · obtain ⟨before, isBefore⟩ : ∃ before, rest.length - (depth - z.stack.length) = before := ⟨_, rfl⟩
      obtain rfl : gone = before + 1 := by omega
      rw [isBefore] at stack unlisted overflow
      rw [push_freeze (by omega)]
      refine ⟨stack, (insertUnlisted_perm ..).trans ?_, ?_⟩
      · rw [List.take_succ_cons]
        exact (unlisted.cons e).trans List.perm_middle.symm
      · change w.overflow + 1 = _
        rw [overflow, overflow_succ]

/-! ## The update as a whole -/

/-- The newly shed bays with their entries (R68, R69). -/
def newEntries (cycle : Word32) (shed : List Candidate) : List ShedEntry :=
  (shed.filter fun c => c.group = .running ∨ c.group = .others).map fun c => ⟨c.x.bay, cycle⟩

/-- The entries that stay listed, trimmed to the depth (R68). -/
def State.trimmed (s : State) (admitted : List Candidate) : Shedding :=
  ((Shedding.mk s.ale.shedStack s.ale.unlisted s.ale.overflowCount).keep (s.staysListed admitted)).trim
    s.settings.shedStackDepth

theorem stackUpdate_eq (s : State) (cycle : Word32) (admitted shed : List Candidate) :
    s.stackUpdate cycle admitted shed = (s.trimmed admitted).pushAll s.settings.shedStackDepth s.settings.overflowPolicy
      (newEntries cycle shed) := by
  have notDue : ∀ g : Group, (g ≠ .due) ↔ (g = .running ∨ g = .others) := by
    intro g
    cases g <;> simp
  unfold State.stackUpdate Shedding.pushAll newEntries newlyShed State.trimmed
  simp only [List.foldr_map, notDue]

theorem staysListed_iff (s : State) (admitted : List Candidate) (b : BayId) : s.staysListed admitted b = true ↔
    ∃ x, s.eligible b = some x ∧ ((s.bay b).recordedStart = none ∨ (s.bay b).recordedStart = some x.seq) ∧
      ∀ c ∈ admitted, c.x.bay ≠ b := by
  unfold State.staysListed
  cases eligible : s.eligible b with
  | none => simp
  | some x =>
    have isBay := bay_of_eligible eligible
    have own := staleEntry_iff s x
    rw [isBay] at own
    simp only [Bool.and_eq_true, Bool.not_eq_true', own, Option.some.injEq, exists_eq_left', List.any_eq_false,
      decide_eq_true_iff, ne_eq]

theorem trimmed_eq {s : State} {admitted : List Candidate} {stays : ShedEntry → Bool} {stack unlisted : List ShedEntry}
    (isStays : ∀ e, stays e = true ↔ ∃ x, s.eligible e.bay = some x ∧
      ((s.bay e.bay).recordedStart = none ∨ (s.bay e.bay).recordedStart = some x.seq) ∧
      ∀ c ∈ admitted, c.x.bay ≠ e.bay)
    (isStack : stack = s.ale.shedStack.filter stays) (isUnlisted : unlisted = s.ale.unlisted.filter stays) :
    s.trimmed admitted = Shedding.trim s.settings.shedStackDepth ⟨stack, unlisted, s.ale.overflowCount⟩ := by
  have same : (fun e : ShedEntry => s.staysListed admitted e.bay) = stays :=
    funext fun e => Bool.eq_iff_iff.mpr ((staysListed_iff s admitted e.bay).trans (isStays e).symm)
  unfold State.trimmed Shedding.keep
  rw [same, isStack, isUnlisted]

theorem trim_perm (depth : Nat) (z : Shedding) :
    ((z.trim depth).stack ++ (z.trim depth).unlisted).Perm (z.stack ++ z.unlisted) := by
  refine ((insertAll_perm (z.stack.drop depth) z.unlisted).append_left (z.stack.take depth)).trans ?_
  rw [← List.append_assoc, List.take_append_drop]

/-! ## No bay comes to be listed twice -/

/-- A bay that stays listed is not among the newly shed (R58, R68). -/
theorem stays_apart {s : State} {q : Word32} {c : Candidate} {admitted : List Candidate} {e : ShedEntry}
    (candidate : c ∈ s.candidates q) (new : c.group = .running ∨ c.group = .others)
    (listed : e ∈ s.ale.shedStack ++ s.ale.unlisted) (stays : s.staysListed admitted e.bay = true) :
      c.x.bay ≠ e.bay := by
  intro same
  obtain ⟨eligible, grouped⟩ := (mem_candidates s q c).mp candidate
  obtain ⟨x, isEligible, own, -⟩ := (staysListed_iff s admitted e.bay).mp stays
  rw [same, isEligible] at eligible
  obtain rfl := Option.some.inj eligible
  have isOwn : s.staleEntry c.x = false := (staleEntry_iff s c.x).mpr (by rw [same]; exact own)
  cases found : s.shedEntry c.x.bay with
  | none =>
    have absent := List.find?_eq_none.mp found e listed
    exact absurd same.symm (by simpa using absent)
  | some f =>
    rw [groupOf_listed isOwn found] at grouped
    have isDue : c.group = .due := by
      split at grouped
      · exact (Option.some.inj grouped).symm
      · cases grouped
    rw [isDue] at new
    exact absurd new (by decide)

theorem walk_shed_sublist (pool margin : Nat) (l : List Candidate) : ∀ f : Nat,
    (walk pool margin f l).shed.Sublist l := by
  induction l with
  | nil => exact fun f => List.Sublist.refl _
  | cons c rest ih =>
    intro f
    rw [walk_cons]
    split
    · exact (ih _).cons c
    · exact (ih f).cons_cons c

/-- A candidate that a walk of the allocation sheds. -/
theorem candidate_of_shed {s : State} {m : MeasurementSet} {t : Terms} {c : Candidate}
    (shed : c ∈ (s.allot m t).first.shed ++ (s.allot m t).second.shed) : c ∈ s.candidates m.cycle := by
  have ordered : ∀ cls, c ∈ s.classOrder (s.candidates m.cycle) cls → c ∈ s.candidates m.cycle := fun cls held => by
    obtain ⟨eligible, -, grouped⟩ := (mem_classOrder ..).mp held
    exact (mem_candidates ..).mpr ⟨eligible, grouped⟩
  obtain first | second := List.mem_append.mp shed
  · exact (List.mem_append.mp ((walk_shed_sublist ..).subset first)).elim (ordered 0) (ordered 1)
  · exact ordered 2 ((walk_shed_sublist ..).subset second)

theorem shed_bays_nodup {s : State} {m : MeasurementSet} {t : Terms}
    (once : ((s.ale.shedStack ++ s.ale.unlisted).map (·.bay)).Nodup) :
    (((s.allot m t).first.shed ++ (s.allot m t).second.shed).map (·.x.bay)).Nodup := by
  refine bays_nodup_append ((order01_bays_nodup s m.cycle once).sublist ((walk_shed_sublist ..).map _))
    ((classOrder_bays_nodup s m.cycle 2 once).sublist ((walk_shed_sublist ..).map _)) fun c first d second => ?_
  obtain ⟨eligible', two, -⟩ := (mem_classOrder ..).mp ((walk_shed_sublist ..).subset second)
  obtain zero | one := List.mem_append.mp ((walk_shed_sublist ..).subset first)
  · obtain ⟨eligible, zero, -⟩ := (mem_classOrder ..).mp zero
    exact bay_ne_of_cls eligible eligible' (by rw [zero, two]; decide)
  · obtain ⟨eligible, one, -⟩ := (mem_classOrder ..).mp one
    exact bay_ne_of_cls eligible eligible' (by rw [one, two]; decide)

theorem newEntries_bays (cycle : Word32) (shed : List Candidate) : (newEntries cycle shed).map (·.bay) =
    (shed.filter fun c => c.group = .running ∨ c.group = .others).map (·.x.bay) := by
  unfold newEntries
  rw [List.map_map]
  rfl

/-- The update lists no bay twice (R68, R69). -/
theorem listed_nodup {s : State} {m : MeasurementSet} {t : Terms} {stays : ShedEntry → Bool} {admitted : List Candidate}
    (isStays : ∀ e, stays e = s.staysListed admitted e.bay)
    (once : ((s.ale.shedStack ++ s.ale.unlisted).map (·.bay)).Nodup) :
    ((newEntries m.cycle ((s.allot m t).first.shed ++ (s.allot m t).second.shed) ++
      (s.ale.shedStack.filter stays ++ s.ale.unlisted.filter stays)).map (·.bay)).Nodup := by
  rw [← List.filter_append, List.map_append, newEntries_bays]
  refine List.nodup_append.mpr ⟨(shed_bays_nodup once).sublist (List.filter_sublist.map _),
    once.sublist (List.filter_sublist.map _), fun b new c kept => ?_⟩
  obtain ⟨x, shed, rfl⟩ := List.mem_map.mp new
  obtain ⟨e, held, rfl⟩ := List.mem_map.mp kept
  obtain ⟨member, group⟩ := List.mem_filter.mp shed
  obtain ⟨listed, stay⟩ := List.mem_filter.mp held
  exact stays_apart (candidate_of_shed member) (of_decide_eq_true group) listed (isStays e ▸ stay)

/-! ## Where each bay stands -/

theorem stackPlace_of_once {l : List ShedEntry} (once : (l.map (·.bay)).Nodup) : ∀ {i position : Nat} {e : ShedEntry},
    l[i]? = some e → stackPlace e.bay position l = some (position + i, e.since) := by
  induction l with
  | nil => simp
  | cons d rest ih =>
    intro i position e held
    rw [List.map_cons, List.nodup_cons] at once
    cases i with
    | zero =>
      obtain rfl : d = e := by simpa using held
      exact if_pos rfl
    | succ i =>
      rw [List.getElem?_cons_succ] at held
      have apart : d.bay ≠ e.bay := fun same => once.1 (same ▸ List.mem_map_of_mem (List.mem_of_getElem? held))
      unfold stackPlace
      rw [if_neg apart, ih once.2 held]
      congr 2
      omega

theorem stackPlace_of_absent {l : List ShedEntry} {b : BayId} (absent : ∀ e ∈ l, e.bay ≠ b) : ∀ position : Nat,
    stackPlace b position l = none := by
  induction l with
  | nil => exact fun position => rfl
  | cons d rest ih =>
    intro position
    unfold stackPlace
    rw [if_neg (absent d List.mem_cons_self), ih fun e held => absent e (List.mem_cons_of_mem _ held)]

theorem placeOf_spec {z : Shedding} (once : ((z.stack ++ z.unlisted).map (·.bay)).Nodup) :
    (∀ (i : Nat) (e : ShedEntry), z.stack[i]? = some e → z.placeOf e.bay = (.stack (i + 1), some e.since)) ∧
    (∀ e ∈ z.unlisted, z.placeOf e.bay = (.unlisted, some e.since)) ∧
    ∀ b : BayId, (∀ e ∈ z.stack ++ z.unlisted, e.bay ≠ b) → z.placeOf b = (.none, none) := by
  rw [List.map_append, List.nodup_append] at once
  obtain ⟨onStack, offStack, apart⟩ := once
  refine ⟨fun i e held => ?_, fun e held => ?_, fun b absent => ?_⟩
  · unfold Shedding.placeOf
    rw [stackPlace_of_once onStack held, Nat.add_comm]
  · have missing : stackPlace e.bay 1 z.stack = none :=
      stackPlace_of_absent (fun d stacked => apart _ (List.mem_map_of_mem stacked) _ (List.mem_map_of_mem held)) 1
    have found : z.unlisted.find? (fun d => d.bay = e.bay) = some e := find?_of_once offStack held
    unfold Shedding.placeOf
    rw [missing, found]
  · have missing : stackPlace b 1 z.stack = none :=
      stackPlace_of_absent (fun e held => absent e (List.mem_append_left _ held)) 1
    have none : z.unlisted.find? (fun e => e.bay = b) = Option.none := by
      rw [List.find?_eq_none]
      intro e held
      simpa using absent e (List.mem_append_right _ held)
    unfold Shedding.placeOf
    rw [missing, none]

/-- Settles O51: the entries kept are trimmed, and the newly shed are pushed on them one by one. -/
theorem shedStackIsUpdated : Obligations.ShedStackIsUpdated := by
  intro s m z a depth stays stack unlisted pushed listed isUpdate isAllot isDepth one isStays isStack
    isUnlisted isPushed
    isListed
  have trimmed := trimmed_eq isStays isStack isUnlisted
  rw [← isDepth] at trimmed
  have isNew : pushed = newEntries m.cycle (a.first.shed ++ a.second.shed) := isPushed
  have updated : z = (Shedding.trim depth ⟨stack, unlisted, s.ale.overflowCount⟩).pushAll depth
    s.settings.overflowPolicy
      pushed := by
    rw [isUpdate, isNew, isDepth, ← isDepth, ← trimmed, isAllot, isDepth]
    exact stackUpdate_eq ..
  have within : (Shedding.trim depth ⟨stack, unlisted, s.ale.overflowCount⟩).stack.length ≤ depth :=
    List.length_take_le ..
  have moved : (Shedding.trim depth ⟨stack, unlisted, s.ale.overflowCount⟩).unlisted.Perm
    (unlisted ++ stack.drop depth) :=
    (insertAll_perm (stack.drop depth) unlisted).trans List.perm_append_comm
  have counted : ∀ n, (Shedding.trim depth ⟨stack, unlisted, s.ale.overflowCount⟩).overflow + BitVec.ofNat 32 n =
      s.ale.overflowCount + BitVec.ofNat 32 ((stack.drop depth).length + n) := fun n => by
    rw [List.length_drop, BitVec.ofNat_add, ← BitVec.add_assoc]
    rfl
  refine ⟨fun wrap => ?_, fun out freeze isOut => ?_, fun sorted => ?_, fun once => ?_, fun t rest waiting done => ?_⟩
  · rw [wrap] at updated
    obtain ⟨top, off, count⟩ := pushAll_wrap one pushed within
    rw [← updated] at top off count
    rw [isListed]
    exact ⟨top, off.trans (moved.append_right _), count.trans (counted _)⟩
  · rw [freeze] at updated
    obtain ⟨top, off, count⟩ := pushAll_freeze pushed isOut within
    rw [← updated] at top off count
    exact ⟨top, off.trans (moved.append_right _), count.trans (counted _)⟩
  · rw [updated]
    refine pushAll_sorted pushed (insertAll_sorted _ ?_)
    rw [isUnlisted]
    exact sorted.sublist List.filter_sublist
  · have entries : (z.stack ++ z.unlisted).Perm (pushed ++ (stack ++ unlisted)) := by
      rw [updated]
      exact (pushAll_perm ..).trans ((trim_perm ..).append_left pushed)
    rw [(entries.map _).nodup_iff, isNew, isStack, isUnlisted, isAllot]
    exact listed_nodup (fun e => Bool.eq_iff_iff.mpr ((isStays e).trans (staysListed_iff s _ e.bay).symm)) once
  · obtain ⟨t', done', -, isAle, -, bays, -, -⟩ := allocation_writes waiting
    rw [done'] at done
    obtain rfl : t' = t := Host.Outcome.next.inj done
    rw [← isUpdate] at isAle bays
    rw [isAle]
    refine ⟨rfl, rfl, rfl, fun distinct => ?_⟩
    obtain ⟨onStack, offStack, absent⟩ := placeOf_spec distinct
    refine ⟨fun i e held => ?_, fun e held => ?_, fun b missing => ?_⟩
    · rw [bays, onStack i e held]
      exact ⟨rfl, rfl⟩
    · rw [bays, offStack e held]
      exact ⟨rfl, rfl⟩
    · rw [bays, absent b missing]
      exact ⟨rfl, rfl⟩

end Sys2Proof.Machine
end
